-- ==== Sys2Proof/Word.lean ====
section
/-! DEFINITION. The plainest types of the model: octets, card ids, the four gate channels, the two
berths, and the tables with one place per channel or per berth. -/

namespace Sys2Proof

/-- One octet of a line or of a stored image. -/
abbrev Octet := BitVec 8

/-- A card id or allotment token: 8 octets, compared as an unsigned number (R138). -/
abbrev CardId := BitVec 64

/-- A gate channel, 0..3 (chapter 3). -/
inductive Chan where
  | c0 | c1 | c2 | c3
  deriving DecidableEq, Repr

/-- A berth, 0 or 1 (R1). -/
inductive Berth where
  | b0 | b1
  deriving DecidableEq, Repr

namespace Chan

/-- The channel's number. -/
def num : Chan → Nat
  | c0 => 0 | c1 => 1 | c2 => 2 | c3 => 3

/-- The channel with a number; none where the number is out of range. -/
def ofNum? : Nat → Option Chan
  | 0 => some c0 | 1 => some c1 | 2 => some c2 | 3 => some c3 | _ => none

/-- The channels in order 0 to 3. -/
def all : List Chan := [c0, c1, c2, c3]

end Chan

namespace Berth

/-- The berth's number. -/
def num : Berth → Nat
  | b0 => 0 | b1 => 1

/-- The berth with a number; none where the number is out of range. -/
def ofNum? : Nat → Option Berth
  | 0 => some b0 | 1 => some b1 | _ => none

end Berth

/-- One value for each of the four channels. -/
structure PerChan (α : Type) where
  c0 : α
  c1 : α
  c2 : α
  c3 : α
  deriving DecidableEq, Repr

namespace PerChan

variable {α β : Type}

/-- The value of one channel. -/
def get (p : PerChan α) : Chan → α
  | .c0 => p.c0 | .c1 => p.c1 | .c2 => p.c2 | .c3 => p.c3

/-- The table with one channel's value replaced. -/
def set (p : PerChan α) (c : Chan) (v : α) : PerChan α :=
  match c with
  | .c0 => { p with c0 := v }
  | .c1 => { p with c1 := v }
  | .c2 => { p with c2 := v }
  | .c3 => { p with c3 := v }

/-- The same value for every channel. -/
def same (v : α) : PerChan α := ⟨v, v, v, v⟩

/-- A table computed channel by channel. -/
def of (f : Chan → α) : PerChan α := ⟨f .c0, f .c1, f .c2, f .c3⟩

end PerChan

/-- One value for each of the two berths. -/
structure PerBerth (α : Type) where
  b0 : α
  b1 : α
  deriving DecidableEq, Repr

namespace PerBerth

variable {α : Type}

/-- The value of one berth. -/
def get (p : PerBerth α) : Berth → α
  | .b0 => p.b0 | .b1 => p.b1

/-- The table with one berth's value replaced. -/
def set (p : PerBerth α) (b : Berth) (v : α) : PerBerth α :=
  match b with
  | .b0 => { p with b0 := v }
  | .b1 => { p with b1 := v }

/-- The same value for both berths. -/
def same (v : α) : PerBerth α := ⟨v, v⟩

end PerBerth

/-- A timer on uptime: none while stopped, else the milliseconds left. -/
abbrev Timer := Option Nat

/-- A reading of the pier clock: a day number and seconds of the day (R149). -/
structure ClockTime where
  day : Nat
  secs : Nat
  deriving DecidableEq, Repr

/-- One reading at or before another, day first. -/
def ClockTime.le (a b : ClockTime) : Bool :=
  a.day < b.day || (a.day == b.day && a.secs ≤ b.secs)

end Sys2Proof
end

