-- ==== Sys2Proof/Config.lean ====
section
/-! DEFINITION. The figures the manual fixes for every ZB-4: sizes of queues and lists, periods of
timers that no setting gives, and ranges used by more than one rule. -/

namespace Sys2Proof.Config

/-- Notices the queue holds (R175). -/
def noticeQueueSize : Nat := 32
/-- Items one POLL reply carries at most (R176). -/
def pollItems : Nat := 8
/-- The longest body of a frame, in octets (R172, R176). -/
def maxBody : Nat := 250
/-- Entries of the journey list (R117). -/
def journeySize : Nat := 256
/-- Claims one channel holds at most (R32). -/
def claimsPerChannel : Nat := 3
/-- Entries of the deny list (R138). -/
def denySize : Nat := 4096
/-- Entries of the allotment table (R158). -/
def allotSize : Nat := 16
/-- Entries of one load segment (R140). -/
def segmentSize : Nat := 16
/-- Largest total of an allotment (R158). -/
def maxAllotTotal : Nat := 9999
/-- Where the counts of a call record and the tallies saturate (R2, R68). -/
def countMax : Nat := 65535
/-- Where the fares totals saturate (R3). -/
def fareTotalMax : Nat := 4294967295
/-- Store writes the settings memory endures (R182). -/
def storeLimit : Nat := 10000
/-- Reader inactivity timer, ms (R78). -/
def inactivityMs : Nat := 3000
/-- Attach timer, ms (R78). -/
def attachMs : Nat := 1000
/-- Write timer, ms (R85). -/
def writeMs : Nat := 1000
/-- Obstruction timer, ms (R60). -/
def obstructionMs : Nat := 20000
/-- Load inactivity timer, ms (R139). -/
def loadIdleMs : Nat := 30000
/-- Minimum hold of egress, ms (R165). -/
def holdMs : Nat := 30000
/-- Start window of the supervision timer, s (R179). -/
def startWindowS : Nat := 60
/-- Last second of a day (R149). -/
def lastSecond : Nat := 86399
/-- Last day number (R149). -/
def lastDay : Nat := 65535
/-- Largest fare a card or a claim carries, cents (R106, Table 2-3). -/
def maxFare : Nat := 5000

end Sys2Proof.Config
end

