-- ==== Sys2Proof/Syntax.lean ====
section
/-! DEFINITION. The commands of the ZB-4: one constructor of `Instr` for each row of
spec/opcode_table.json, with its operands, and the types those operands are made of. -/

namespace Sys2Proof

/-- Where a valid bus frame is addressed: to this part, or to every controller (R172, R173). -/
inductive Dest where
  | part | broadcast
  deriving DecidableEq, Repr

/-- Whether the length of a message's body is one its kind can have (R174, test 2). -/
inductive BodyLen where
  | fits | wrong
  deriving DecidableEq, Repr

/-- Service flag of a channel (R65). -/
inductive ServiceFlag where
  | inService | outOfService
  deriving DecidableEq, Repr

/-- Egress posture of a channel (R166). -/
inductive Posture where
  | opened | closed | asIs
  deriving DecidableEq, Repr

/-- A fallback setting (R155). -/
inductive Fallback where
  | accept | refuse
  deriving DecidableEq, Repr

/-- The value of one setting as a message carries it (R181, Table 12-1). -/
inductive SettingValue where
  | num (n : Nat)
  | noBerth
  | posture (p : Posture)
  | fallback (f : Fallback)
  deriving DecidableEq, Repr

/-- What the non-volatile memory holds as the settings image: the values and their CRC-16 (R180). -/
structure StoredImage where
  values : List SettingValue
  crc : BitVec 16
  deriving DecidableEq, Repr

/-- What a start-up finds on the part's inputs (R75, R171, R173) and, where a settings store was cut
short, what the image memory holds (R182). -/
structure Found where
  beamA : PerChan Bool
  beamB : PerChan Bool
  rampSafe : PerChan Bool
  evacuate : Bool
  straps : BitVec 3
  tornImage : StoredImage
  deriving DecidableEq, Repr

/-- Kind of a product (R136). -/
inductive ProductKind where
  | storedValue | period | bundle | account | staff
  deriving DecidableEq, Repr

/-- Line set of a product (R136). -/
inductive LineSet where
  | all
  | lines (ls : List Nat)
  deriving DecidableEq, Repr

/-- Reason of a deny entry (R138). -/
inductive DenyReason where
  | lost | fraud | closedAccount | replaced
  deriving DecidableEq, Repr

/-- Action of a deny entry (R138). -/
inductive DenyAction where
  | refuse | block
  deriving DecidableEq, Repr

/-- Kind of a table load (R139). -/
inductive LoadKind where
  | product | tariff | deny
  deriving DecidableEq, Repr

/-- What one entry of a load segment says (R141). A code that stands for no kind, reason or action is
`none`; a tariff entry of no known type is `unknownTariff`. -/
inductive EntryContent where
  | product (number : Nat) (kind : Option ProductKind) (cls : Nat) (lines : LineSet)
  | deny (id : CardId) (reason : Option DenyReason) (action : Option DenyAction)
  | general (effective : ClockTime) (unit window creditCap overdraft : Nat)
  | line (number fare : Nat)
  | cls (number discount cap : Nat)
  | band (start stop multiplier : Nat)
  | unknownTariff
  deriving DecidableEq, Repr

/-- One entry as a LOAD_SEGMENT carries it: its octets, which the CRC of R142 covers, and what they
say. -/
structure LoadEntry where
  octets : List Octet
  content : EntryContent
  deriving DecidableEq, Repr

/-- Operation of DENY_EDIT (R145). -/
inductive DenyOp where
  | add | remove
  deriving DecidableEq, Repr

/-- One id of a DENY_EDIT, with the reason and action an ADD carries. -/
structure DenyItem where
  id : CardId
  reason : Option DenyReason
  action : Option DenyAction
  deriving DecidableEq, Repr

/-- Which tariff a TABLE_QUERY names (R146). -/
inductive TariffPlace where
  | active | pending
  deriving DecidableEq, Repr

/-- Subject of TABLE_QUERY (R146). DESIGN CHOICE (assumption 37): TARIFF with neither ACTIVE nor PENDING, which the
rule names nowhere, is sent as an unknown subject. -/
inductive Subject where
  | summary
  | product (number : Nat)
  | deny (id : CardId)
  | tariff (place : TariffPlace)
  | unknown
  deriving DecidableEq, Repr

/-- What ALLOT_QUERY names (R162). -/
inductive AllotKey where
  | token (id : CardId)
  | index (n : Nat)
  deriving DecidableEq, Repr

/-- Verdict of REFER_ANSWER (R153). -/
inductive AnswerVerdict where
  | accept | refuse | undecided
  deriving DecidableEq, Repr

/-- What CHANNEL_RESTORE names (R170). -/
inductive RestoreTarget where
  | one (n : Nat)
  | all
  deriving DecidableEq, Repr

/-- Why a reader frame is discarded (R76, R77). -/
inductive ReaderDiscard where
  | damaged | wrongKind | malformed
  deriving DecidableEq, Repr

/-- Why a bus frame is discarded (R172): it is damaged, it is for another address, or it carries the
part's own address and a kind with 80h set. -/
inductive BusDiscard where
  | damaged | otherAddress | foreignReply
  deriving DecidableEq, Repr

/-- The two beams of a gate (R52). -/
inductive Beam where
  | shore | vessel
  deriving DecidableEq, Repr

/-- One of the two referral slots (R151). -/
inductive Slot where
  | s0 | s1
  deriving DecidableEq, Repr

/-- The commands and events the part takes: one constructor per row of spec/opcode_table.json, in the
table's order. Message fields are numbers as carried, so that a field out of range can be sent. -/
inductive Instr where
  -- power
  | powerOn (found : Found)
  | supplyDip
  | supplyRecovered (found : Found)
  | commandStartUp (found : Found)
  -- the pier bus
  | poll (len : BodyLen)
  | status (len : BodyLen)
  | statusClear (len : BodyLen)
  | restart (len : BodyLen)
  | unknownKind (kind : Nat)
  | broadcastIgnored (kind : Nat)
  | busFrameDiscarded (why : BusDiscard)
  -- the pier clock
  | clockSet (dest : Dest) (len : BodyLen) (day secs : Nat)
  | clockSecond
  -- calls
  | callOpen (len : BodyLen) (berth vessel line capacity declared dwell : Nat)
  | boardStart (len : BodyLen) (berth vessel : Nat)
  | lastCall (len : BodyLen) (berth vessel : Nat)
  | castOff (len : BodyLen) (berth vessel : Nat)
  | callCancel (len : BodyLen) (berth vessel : Nat)
  | callQuery (len : BodyLen) (berth : Nat)
  | callCollect (len : BodyLen) (berth vessel : Nat)
  | aboardAdjust (len : BodyLen) (berth vessel : Nat) (delta : Int)
  -- channels
  | channelQuery (len : BodyLen) (channel : Nat)
  | channelService (len : BodyLen) (channel : Nat) (value : Option ServiceFlag)
  | channelRelease (len : BodyLen) (channel : Nat) (force : Option Bool)
  | channelRestore (len : BodyLen) (target : RestoreTarget)
  -- egress
  | egressEnter (dest : Dest) (len : BodyLen)
  | egressClear (dest : Dest) (len : BodyLen)
  -- tables
  | loadBegin (dest : Dest) (len : BodyLen) (kind : Option LoadKind) (version count : Nat) (crc : BitVec 16)
  | loadSegment (dest : Dest) (len : BodyLen) (index : Nat) (entries : List LoadEntry)
  | loadCommit (dest : Dest) (len : BodyLen)
  | loadAbort (dest : Dest) (len : BodyLen)
  | denyEdit (dest : Dest) (len : BodyLen) (op : Option DenyOp) (items : List DenyItem)
  | tableQuery (len : BodyLen) (subject : Subject)
  | allotSet (len : BodyLen) (token : CardId) (line total block : Nat) (expiry : Option ClockTime)
  | allotRemove (len : BodyLen) (token : CardId)
  | allotQuery (len : BodyLen) (key : AllotKey)
  | referAnswer (len : BodyLen) (id : Nat) (verdict : Option AnswerVerdict) (fare extra : Nat)
  | deskCheck (line : Nat) (card : List Octet)
  -- settings
  | settingsGet (len : BodyLen) (number : Nat)
  | settingsSet (len : BodyLen) (number : Nat) (value : SettingValue)
  | settingsStore (len : BodyLen)
  | storeWriteEnd (readBack : StoredImage)
  | settingsReload (len : BodyLen)
  | settingsDefault (len : BodyLen)
  -- reader lines
  | present (c : Chan) (body : List Octet)
  | withdraw (c : Chan) (body : List Octet)
  | writeResult (c : Chan) (body : List Octet)
  | alive (c : Chan)
  | ready (c : Chan)
  | readerFrameDiscarded (c : Chan) (why : ReaderDiscard)
  | readerFrameSent (c : Chan)
  -- timers and completions
  | attachTimerExpiry (c : Chan)
  | readerInactivityExpiry (c : Chan)
  | writeTimerExpiry (c : Chan)
  | validationCompletion
  | referralTimerExpiry (slot : Slot)
  | supervisionTimerExpiry
  | loadInactivityExpiry
  | dwellTimerExpiry (b : Berth)
  | lastCallTimerExpiry (b : Berth)
  | reportTimerExpiry
  | passWindowExpiry (c : Chan)
  | suspensionTimerExpiry (c : Chan)
  | obstructionTimerExpiry (c : Chan)
  | minimumHoldExpiry
  -- field lines
  | beamEvent (c : Chan) (beam : Beam) (broken : Bool)
  | rampUnsafe (c : Chan)
  | rampSafe (c : Chan)
  | evacuateActive
  | evacuateInactive
  | busReplySent
  deriving DecidableEq, Repr

end Sys2Proof
end

