-- ==== Sys2Proof/Decode.lean ====
section
/-! DEFINITION. The commands that a word of spec/opcode_table.json spells. The table gives no row any
bits (its commands are frames, records, timer run-outs and line changes), so no word spells one. -/

namespace Sys2Proof

/-- The command that the table's bits spell: none for every word, since no row of the table has bits. -/
def decodeTableWord (_nbits _w : Nat) : Option Instr := none

end Sys2Proof
end

