-- ==== Sys2Proof/Machine/Types.lean ====
section
/-! DEFINITION. The plain data the blocks of the part hold: cards and verdicts, call records, claims,
channels, reader ports, the arbiter's and the engine's records, the tables, the settings. -/

namespace Sys2Proof.Machine

/-! ### Cards and verdicts (chapters 6 and 11) -/

/-- Value part of a card (Table 11-4). -/
structure ValuePart where
  balance : Int
  daily : Nat
  day : Nat
  deriving DecidableEq, Repr

/-- Last-boarding part of a card (Table 11-4). -/
structure LastBoarding where
  day : Nat
  secs : Nat
  line : Nat
  pier : Nat
  fare : Nat
  tag : Nat
  deriving DecidableEq, Repr

/-- Card contents as a PRESENT record or a DESK_CHECK carries them (Table 11-4). -/
structure Card where
  id : CardId
  product : Nat
  blocked : Bool
  value : Option ValuePart
  rides : Option Nat
  passEnd : Option Nat
  last : Option LastBoarding
  deriving DecidableEq, Repr

/-- Verdict codes of Table 11-6. -/
inductive VerdictCode where
  | accept | acceptFree | denied | passback | lowBalance | expired
  | exhausted | wrongLine | full | notBoarding | notServed | gangwayClosed
  | badCard | notReady | refusedOnline | unknownProduct | spent | egress
  deriving DecidableEq, Repr

/-- ACCEPT and ACCEPT_FREE are the verdicts that are no refusal (R69). -/
def VerdictCode.isRefusal : VerdictCode → Bool
  | .accept | .acceptFree => false
  | _ => true

/-- The card parts a verdict asks the reader to write, with the write tag (R114). -/
structure WriteBack where
  tag : Nat
  value : Option ValuePart
  rides : Option Nat
  last : Option LastBoarding
  block : Bool
  deriving DecidableEq, Repr

/-- A verdict for a reader (R113, Table 11-5). -/
structure Verdict where
  code : VerdictCode
  fare : Nat
  balance : Option Int
  writeBack : Option WriteBack
  deriving DecidableEq, Repr

/-! ### Calls (chapter 1) -/

/-- The five call states (R5). -/
inductive CallState where
  | vacant | alongside | boarding | lastCall | ended
  deriving DecidableEq, Repr

/-- A timestamp of a call record (R4). -/
inductive Stamp where
  | absent
  | unknown
  | timed (t : ClockTime)
  deriving DecidableEq, Repr

/-- End reasons of a call (Table 1-1). -/
inductive EndReason where
  | none | castOff | timed | cancelled | egress
  deriving DecidableEq, Repr

/-- Cause a CALL_STATE notice carries (R20). -/
inductive CallCause where
  | command | timed | egress
  deriving DecidableEq, Repr

/-- The six boarded counts (Table 1-1). -/
structure Boarded where
  paid : Nat
  free : Nat
  account : Nat
  allotment : Nat
  staff : Nat
  unpaid : Nat
  deriving DecidableEq, Repr

/-- No boardings. -/
def Boarded.zero : Boarded := ⟨0, 0, 0, 0, 0, 0⟩

/-- A call record but for its berth, which is its place in the table, and its three derived figures:
held seats, aboard figure and headroom (R1, Table 1-1). -/
structure Call where
  state : CallState
  vessel : Nat
  line : Nat
  capacity : Nat
  declared : Nat
  boarded : Boarded
  alighted : Nat
  excess : Nat
  overCapacity : Bool
  fares : Nat
  accountFares : Nat
  dwellLimit : Nat
  opened : Stamp
  boardingStarted : Stamp
  lastCallAt : Stamp
  endedAt : Stamp
  endReason : EndReason
  deriving DecidableEq, Repr

/-- The zeroed values of Table 1-1. -/
def Call.zeroed : Call where
  state := .vacant
  vessel := 0
  line := 0
  capacity := 0
  declared := 0
  boarded := .zero
  alighted := 0
  excess := 0
  overCapacity := false
  fares := 0
  accountFares := 0
  dwellLimit := 0
  opened := .absent
  boardingStarted := .absent
  lastCallAt := .absent
  endedAt := .absent
  endReason := .none

/-- The dwell timer and the last-call timer of a record (R15, R16). -/
structure CallTimers where
  dwell : Timer
  lastCall : Timer
  deriving DecidableEq, Repr

/-- Both timers stopped. -/
def CallTimers.stopped : CallTimers := ⟨none, none⟩

/-! ### Claims (chapter 2) -/

/-- Kinds of claim, each adding to its own boarded count (Table 2-3). -/
inductive ClaimKind where
  | paid | free | account | allotment | staff
  deriving DecidableEq, Repr

/-- A claim entry but for its channel and status, which are the list that holds it (Table 2-3). -/
structure Claim where
  berth : Berth
  kind : ClaimKind
  granted : Nat
  passed : Nat
  card : Option CardId
  fare : Nat
  allot : Option CardId
  tag : Option Nat
  grantUptime : Nat
  window : Nat
  deriving DecidableEq, Repr

/-- The claims of one channel: the live queue, head first, and the provisional claims in order of
grant (R32). -/
structure ChannelClaims where
  live : List Claim
  provisional : List Claim
  deriving DecidableEq, Repr

/-- No claims. -/
def ChannelClaims.none : ChannelClaims := ⟨[], []⟩

/-! ### Channels (chapter 3) -/

/-- Derived channel states (Table 3-3). -/
inductive ChannelState where
  | egressHeld | suspended | released | outOfService | closed | exitFree | admitting
  deriving DecidableEq, Repr

/-- Beam tracker states (3.3). -/
inductive Tracker where
  | clear | outer | inner | spannedIn | spannedOut | leavingIn | leavingOut
  deriving DecidableEq, Repr

/-- Direction of a completed passage (R57). -/
inductive Direction where
  | inward | outward
  deriving DecidableEq, Repr

/-- Display modes (R70). -/
inductive Mode where
  | opened | closed | full | out | suspended | egress
  deriving DecidableEq, Repr

/-- The eight tallies of a channel (R68, R69). -/
structure Tallies where
  inward : Nat
  outward : Nat
  unpaid : Nat
  stray : Nat
  egressIn : Nat
  egressOut : Nat
  taken : Nat
  refusals : Nat
  deriving DecidableEq, Repr

/-- Every tally at 0. -/
def Tallies.zero : Tallies := ⟨0, 0, 0, 0, 0, 0, 0, 0⟩

/-- The state of one gate channel (Table 3-2), its filtered inputs (R53) and its two outputs (R56). The
obstruction flag is OBSTRUCTED exactly while the obstruction set time is present (R60). -/
structure Channel where
  state : ChannelState
  unlockIn : Bool
  unlockOut : Bool
  beamA : Bool
  beamB : Bool
  rampSafe : Bool
  tracker : Tracker
  obstructionTimer : Timer
  obstructedAt : Option Nat
  suspensionTimer : Timer
  limitReached : Bool
  service : ServiceFlag
  modeShown : Option Mode
  tallies : Tallies
  deriving DecidableEq, Repr

/-! ### Reader ports (chapter 4) -/

/-- Reader line states (Table 4-2). -/
inductive LineState where
  | down | attaching | up
  deriving DecidableEq, Repr

/-- Records the part sends on a reader line (Table 4-1). -/
inductive ReaderRecord where
  | setup (channel pier : Nat) (mode : Mode)
  | verdict (v : Verdict)
  | mode (m : Mode)
  deriving DecidableEq, Repr

/-- The awaited write: its tag and the time left of its write timer (R85). -/
structure AwaitedWrite where
  tag : Nat
  left : Nat
  deriving DecidableEq, Repr

/-- A line's receiver: hunting, with an A9h just seen or not, or receiving, with the octets taken since
the sync pair (R76, R172). -/
inductive Receiver where
  | hunting (sync : Bool)
  | receiving (taken : List Octet)
  deriving DecidableEq, Repr

/-- The state of one reader port (R78), with its receiver (R76), the frame going out and the records
waiting (R82). -/
structure Port where
  receiver : Receiver
  line : LineState
  inactivity : Timer
  attach : Timer
  outstanding : Option Card
  awaited : Option AwaitedWrite
  sending : Option ReaderRecord
  waiting : List ReaderRecord
  deriving DecidableEq, Repr

/-- A port at start-up (R78). -/
def Port.atStart : Port := ⟨.hunting false, .down, none, none, none, none, none, []⟩

/-! ### The arbiter (chapter 5) -/

/-- A channel's place in the pending set, when held (R87). -/
structure Pending where
  card : Card
  arrival : Nat
  deriving DecidableEq, Repr

/-- The desk requester's place in the pending set, when held (R87). -/
structure DeskPending where
  card : Card
  line : Nat
  arrival : Nat
  deriving DecidableEq, Repr

/-- The arbiter's state (R87); its engine state FREE or BUSY is whether the engine holds work (R101). -/
structure Arbiter where
  places : PerChan (Option Pending)
  desk : Option DeskPending
  deskOccupied : Bool
  deriving DecidableEq, Repr

/-- The arbiter at start-up (R87). -/
def Arbiter.atStart : Arbiter := ⟨.same none, none, false⟩

/-! ### Tables (chapter 8) -/

/-- A product entry (R136). -/
structure ProductEntry where
  number : Nat
  kind : ProductKind
  cls : Nat
  lines : LineSet
  deriving DecidableEq, Repr

/-- A product table with its version (R136). -/
structure ProductTable where
  version : Nat
  entries : List ProductEntry
  deriving DecidableEq, Repr

/-- A band of a tariff, in minutes of the day (R122). -/
structure Band where
  start : Nat
  stop : Nat
  multiplier : Nat
  deriving DecidableEq, Repr

/-- Discount and daily cap of one concession class (Table 8-2). -/
structure ClassFigures where
  discount : Nat
  cap : Nat
  deriving DecidableEq, Repr

/-- A tariff with its version and effective time (R137). -/
structure Tariff where
  version : Nat
  effective : ClockTime
  base : List Nat
  bands : List Band
  classes : List ClassFigures
  unit : Nat
  window : Nat
  creditCap : Nat
  overdraft : Nat
  deriving DecidableEq, Repr

/-- A deny entry (R138). -/
structure DenyEntry where
  id : CardId
  reason : DenyReason
  action : DenyAction
  deriving DecidableEq, Repr

/-- The deny list with its version and edit count (R135, R138). -/
structure DenyList where
  version : Nat
  entries : List DenyEntry
  edits : Nat
  deriving DecidableEq, Repr

/-- An allotment entry (Table 9-3); its state is derived. -/
structure Allotment where
  token : CardId
  line : Nat
  total : Nat
  remaining : Nat
  held : Nat
  passed : Nat
  block : Nat
  expiry : Option ClockTime
  deriving DecidableEq, Repr

/-- Derived state of an allotment (R158). -/
inductive AllotState where
  | active | spent | expired
  deriving DecidableEq, Repr

/-- The open load area (R139). -/
structure Load where
  kind : LoadKind
  version : Nat
  count : Nat
  crc : BitVec 16
  next : Nat
  entries : List LoadEntry
  broken : Option Nat
  idle : Nat
  deriving DecidableEq, Repr

/-- The table store (Table 8-1). -/
structure Tables where
  product : Option ProductTable
  active : Option Tariff
  pendingTariff : Option Tariff
  deny : DenyList
  allot : List Allotment
  load : Option Load
  deriving DecidableEq, Repr

/-- The table store at start-up (Table 8-1). -/
def Tables.atStart : Tables := ⟨none, none, none, ⟨0, [], 0⟩, [], none⟩

/-! ### The engine (chapters 6 and 9) -/

/-- Who asked for a validation; the desk requester names the line (R101). -/
inductive Requester where
  | channel (c : Chan)
  | desk (line : Nat)
  deriving DecidableEq, Repr

/-- The end mark of a work (R104). -/
inductive EndMark where
  | none | notBoarding | egress
  deriving DecidableEq, Repr

/-- The view of the tables and the clock fixed when a presentation is taken (R102). Of the allotment table
it fixes the line, block size and expiry of each entry alone, since an ALLOT_SET gives new ones from the next
presentation taken (R161; assumption 26). -/
structure Snapshot where
  product : Option ProductTable
  tariff : Option Tariff
  deny : List DenyEntry
  clock : Option ClockTime
  allot : List Allotment
  deriving DecidableEq, Repr

/-- The work record (R101). -/
structure Work where
  requester : Requester
  card : Card
  snap : Snapshot
  withdrawn : Bool
  mark : EndMark
  deriving DecidableEq, Repr

/-- Outcomes of a journey entry (Table 6-7). -/
inductive JourneyOutcome where
  | admitted | boarded | paidNotPassed | uncertain | resolved
  deriving DecidableEq, Repr

/-- What a write took from the card (Table 6-5). -/
inductive Charge where
  | fare | ride | none
  deriving DecidableEq, Repr

/-- A journey entry (Table 6-7); `uptime` in milliseconds. -/
structure JourneyEntry where
  card : CardId
  uptime : Nat
  berth : Berth
  line : Nat
  outcome : JourneyOutcome
  fare : Nat
  charge : Charge
  tag : Nat
  deriving DecidableEq, Repr

/-- A write note, when held (R115). -/
structure WriteNote where
  tag : Nat
  charge : Charge
  deriving DecidableEq, Repr

/-- Referral causes with the figures each carries (R151). -/
inductive Cause where
  | unknownProduct
  | account (fare peak : Nat)
  | allotmentSpent (total passed : Nat)
  deriving DecidableEq, Repr

/-- The referral causes without their figures (R116). -/
inductive CauseKind where
  | unknownProduct | account | allotmentSpent
  deriving DecidableEq, Repr

/-- The kind of a cause. -/
def Cause.kind : Cause → CauseKind
  | .unknownProduct => .unknownProduct
  | .account .. => .account
  | .allotmentSpent .. => .allotmentSpent

/-- A held referral (R151). For ALLOTMENT_SPENT the token id is the card id. `block` is the block size that
applied when the presentation was taken (R161), and 1 for a card that is no token. -/
structure Referral where
  id : Nat
  channel : Chan
  berth : Berth
  card : Card
  cause : Cause
  block : Nat
  delivered : Bool
  left : Nat
  deriving DecidableEq, Repr

/-- The engine (Table 6-1, R151). `slot1Older` tells which of two held slots was raised first, for the
order of raising of R152. -/
structure Engine where
  work : Option Work
  journey : List JourneyEntry
  nextTag : Nat
  notes : PerChan (Option WriteNote)
  slot0 : Option Referral
  slot1 : Option Referral
  slot1Older : Bool
  nextReferral : Nat
  deriving DecidableEq, Repr

/-- The engine at start-up (R101, R151). -/
def Engine.atStart : Engine := ⟨none, [], 1, .same none, none, none, false, 1⟩

/-! ### Egress (chapter 10) -/

/-- A posture latched at the end of egress (R169). -/
inductive Latch where
  | opened | closed
  deriving DecidableEq, Repr

/-- What entered egress, or was added to its causes (R164). -/
inductive EgressCause where
  | line | command
  deriving DecidableEq, Repr

/-- The egress controller (Table 10-1). -/
structure Egress where
  active : Bool
  byLine : Bool
  byCommand : Bool
  level : Bool
  hold : Timer
  pendingClear : Bool
  posture : PerChan (Option Posture)
  latch : PerChan (Option Latch)
  deriving DecidableEq, Repr

/-- The egress controller at start-up, with the level found on the line (R163). -/
def Egress.atStart (level : Bool) : Egress :=
  ⟨false, false, false, level, none, false, .same none, .same none⟩

/-! ### Settings (chapter 12) -/

/-- The 31 settings (Table 12-1). -/
structure Settings where
  busAddress : Nat
  pierNumber : Nat
  berthOf : PerChan (Option Berth)
  level : PerChan Nat
  passWindow : PerChan Nat
  posture : PerChan Posture
  lastCallLevel : Nat
  lastCallLimit : Nat
  referralTimeout : Nat
  fallbackUnknown : Fallback
  fallbackAccount : Fallback
  fallbackSpent : Fallback
  passbackInterval : Nat
  rereleaseGrace : Nat
  supervisionPeriod : Nat
  suspendLimit : Nat
  countReportPeriod : Nat
  deskLevel : Nat
  agingLimit : Nat
  deriving DecidableEq, Repr

/-- The defaults of Table 12-1. -/
def Settings.default : Settings where
  busAddress := 1
  pierNumber := 1
  berthOf := ⟨some .b0, some .b0, some .b1, some .b1⟩
  level := .same 4
  passWindow := .same 8
  posture := .same .opened
  lastCallLevel := 3
  lastCallLimit := 45
  referralTimeout := 1500
  fallbackUnknown := .refuse
  fallbackAccount := .accept
  fallbackSpent := .refuse
  passbackInterval := 120
  rereleaseGrace := 300
  supervisionPeriod := 10
  suspendLimit := 30
  countReportPeriod := 0
  deskLevel := 1
  agingLimit := 2

/-- The settings store (R180). The store-in-progress flag is whether `storing` holds the image being
written. -/
structure SettingsStore where
  working : Settings
  image : StoredImage
  writeCount : Nat
  storing : Option StoredImage
  fault : Bool
  deriving DecidableEq, Repr

end Sys2Proof.Machine
end

