-- ==== Sys2Proof/Machine/Report.lean ====
section
/-! DEFINITION. What the part reports to the pier computer: notices, POLL items and replies, with the
contents the owning rules give them. -/

namespace Sys2Proof.Machine

/-- Causes of a start-up (R185). -/
inductive StartCause where
  | powerOn | supplyDip | command
  deriving DecidableEq, Repr

/-- Where the address in use comes from (R173). -/
inductive AddressSource where
  | straps | setting
  deriving DecidableEq, Repr

/-- Causes of the over-capacity mark (R28). -/
inductive MarkCause where
  | opened | adjust | unpaid | staff
  deriving DecidableEq, Repr

/-- Causes of TARIFF_ACTIVE (R147). -/
inductive TariffCause where
  | commit | clock | clockSet
  deriving DecidableEq, Repr

/-- Result of a desk check: a verdict code, or WOULD_REFER with its cause and no figure (R116, R123). -/
inductive DeskOutcome where
  | verdict (code : VerdictCode)
  | wouldRefer (cause : CauseKind)
  deriving DecidableEq, Repr

/-- Contents of DESK_RESULT (R89, R116, R159). The arbiter's refusal carries the outcome, the card id and the
line alone. -/
structure DeskResult where
  outcome : DeskOutcome
  card : CardId
  product : Option Nat
  line : Nat
  /-- fare, balance after and daily total after, for an accepted stored-value card -/
  charge : Option (Nat × Int × Nat)
  ridesAfter : Option Nat
  /-- the newest journey entry with its age in seconds -/
  journey : Option (JourneyEntry × Nat)
  /-- seats that would be asked, remaining, held and passed, for an accepted token -/
  allotment : Option (Nat × Nat × Nat × Nat)
  deriving DecidableEq, Repr

/-- The notices of Table 11-1 but REFERRAL, which is never queued (R152). -/
inductive Notice where
  | callState (b : Berth) (vessel : Nat) (left entered : CallState) (cause : CallCause)
      (reason : EndReason) (aboard headroom : Nat)
  | countReport (b : Berth) (vessel : Nat) (state : CallState) (boarded : Boarded)
      (alighted excess declared aboard held headroom : Nat) (overCapacity : Bool)
  | headroom (b : Berth) (vessel : Nat) (room : Bool) (headroom : Nat)
  | overCapacity (b : Berth) (vessel : Nat) (cause : MarkCause) (capacity aboard held : Nat)
  | unpaidPassage (c : Chan) (b : Berth) (vessel unpaid aboard : Nat)
  | obstructedSet (c : Chan) (beamA beamB : Bool)
  | obstructedCleared (c : Chan) (seconds : Nat)
  | readerLost (c : Chan) (left : LineState) (withdrawn : Bool) (tag : Option Nat)
  | channelState (c : Chan) (b : Option Berth) (left entered : ChannelState) (unlockIn unlockOut : Bool)
  | allotmentSpent (token : CardId) (line total held passed : Nat) (c : Chan)
  | tariffActive (version : Nat) (effective : ClockTime) (replaced : Option Nat) (cause : TariffCause)
  | loadAbandoned (kind : LoadKind) (version segments : Nat) (broken : Bool)
  | egressEntered (cause : EgressCause) (channels : PerChan (Option Posture × Nat × Nat))
  | egressLeft (channels : PerChan (Option Latch × Nat × Nat))
  | supervisionLapse (uptime period : Nat)
  | deskResult (r : DeskResult)
  | storeDone (ok : Bool) (writeCount : Nat)
  | restarted (cause : StartCause) (fault : Bool) (address : Nat) (source : AddressSource)
      (writeCount : Nat)
  deriving DecidableEq, Repr

/-- The notice kind codes of Table 11-1. -/
def Notice.code : Notice → Nat
  | .callState .. => 0x01
  | .countReport .. => 0x02
  | .headroom .. => 0x03
  | .overCapacity .. => 0x04
  | .unpaidPassage .. => 0x05
  | .obstructedSet .. => 0x06
  | .obstructedCleared .. => 0x06
  | .readerLost .. => 0x07
  | .channelState .. => 0x08
  | .allotmentSpent .. => 0x09
  | .tariffActive .. => 0x0A
  | .loadAbandoned .. => 0x0B
  | .egressEntered .. => 0x0C
  | .egressLeft .. => 0x0D
  | .supervisionLapse .. => 0x0E
  | .deskResult .. => 0x0F
  | .storeDone .. => 0x10
  | .restarted .. => 0x11

/-- The kind code of REFERRAL (Table 11-1). -/
def referralCode : Nat := 0x13

/-- Contents of REFERRAL (R152). -/
structure ReferralNotice where
  id : Nat
  channel : Chan
  berth : Berth
  vessel : Nat
  card : CardId
  product : Nat
  cause : Cause
  deriving DecidableEq, Repr

/-- An item of a POLL reply: a referral, whose sequence number is 0, or a queued notice with its own
(R176). -/
inductive PollItem where
  | referral (r : ReferralNotice)
  | notice (seq : Nat) (n : Notice)
  deriving DecidableEq, Repr

/-- Message kinds of Table 11-1. -/
inductive MsgKind where
  | poll | status | statusClear | restart | clockSet
  | callOpen | boardStart | lastCall | castOff | callCancel | aboardAdjust | callQuery | callCollect
  | channelQuery | channelService | channelRelease | channelRestore | egressEnter | egressClear
  | loadBegin | loadSegment | loadCommit | loadAbort | denyEdit | tableQuery
  | allotSet | allotRemove | allotQuery | referAnswer | deskCheck
  | settingsGet | settingsSet | settingsStore | settingsReload | settingsDefault
  deriving DecidableEq, Repr

/-- The message kind codes of Table 11-1. -/
def MsgKind.code : MsgKind → Nat
  | .poll => 0x01 | .status => 0x02 | .statusClear => 0x03 | .restart => 0x04
  | .clockSet => 0x08
  | .callOpen => 0x10 | .boardStart => 0x11 | .lastCall => 0x12 | .castOff => 0x13
  | .callCancel => 0x14 | .aboardAdjust => 0x15 | .callQuery => 0x16 | .callCollect => 0x17
  | .channelQuery => 0x20 | .channelService => 0x21 | .channelRelease => 0x22
  | .channelRestore => 0x23 | .egressEnter => 0x28 | .egressClear => 0x29
  | .loadBegin => 0x30 | .loadSegment => 0x31 | .loadCommit => 0x32 | .loadAbort => 0x33
  | .denyEdit => 0x34 | .tableQuery => 0x35
  | .allotSet => 0x36 | .allotRemove => 0x37 | .allotQuery => 0x38
  | .referAnswer => 0x40 | .deskCheck => 0x41
  | .settingsGet => 0x48 | .settingsSet => 0x49 | .settingsStore => 0x4A
  | .settingsReload => 0x4B | .settingsDefault => 0x4C

/-- Every message kind. -/
def MsgKind.all : List MsgKind :=
  [.poll, .status, .statusClear, .restart, .clockSet,
   .callOpen, .boardStart, .lastCall, .castOff, .callCancel, .aboardAdjust, .callQuery, .callCollect,
   .channelQuery, .channelService, .channelRelease, .channelRestore, .egressEnter, .egressClear,
   .loadBegin, .loadSegment, .loadCommit, .loadAbort, .denyEdit, .tableQuery,
   .allotSet, .allotRemove, .allotQuery, .referAnswer, .deskCheck,
   .settingsGet, .settingsSet, .settingsStore, .settingsReload, .settingsDefault]

/-- The kinds executed when sent to broadcast (R173). -/
def MsgKind.broadcast : MsgKind → Bool
  | .clockSet | .egressEnter | .egressClear | .loadBegin | .loadSegment | .loadCommit | .loadAbort
  | .denyEdit => true
  | _ => false

/-- Reply codes of Table 11-2. -/
inductive ReplyCode where
  | ok | badLength | badField | wrongState | locked | busy | late | unknownKind | noRoom | storing | worn
  deriving DecidableEq, Repr

/-- The octet of a reply code (Table 11-2). -/
def ReplyCode.octet : ReplyCode → Nat
  | .ok => 0x00 | .badLength => 0x01 | .badField => 0x02 | .wrongState => 0x03 | .locked => 0x04
  | .busy => 0x05 | .late => 0x06 | .unknownKind => 0x07 | .noRoom => 0x08 | .storing => 0x09
  | .worn => 0x0A

/-- A call record as a reply carries it, with its derived figures (R13, R14, Table 11-7). -/
structure CallReport where
  berth : Berth
  call : Call
  held : Nat
  aboard : Nat
  headroom : Nat
  deriving DecidableEq, Repr

/-- A claim as CHANNEL_QUERY reports it: whether it is LIVE, and its fields with the window of the head
claim alone (R67, Table 2-3). -/
structure ClaimReport where
  live : Bool
  claim : Claim
  deriving DecidableEq, Repr

/-- Contents of the CHANNEL_QUERY reply (R67). -/
structure ChannelReport where
  channel : Chan
  berth : Option Berth
  level : Nat
  state : ChannelState
  unlockIn : Bool
  unlockOut : Bool
  service : ServiceFlag
  line : LineState
  beamA : Bool
  beamB : Bool
  rampSafe : Bool
  tracker : Tracker
  obstructed : Bool
  suspensionLeft : Option Nat
  limitReached : Bool
  /-- where EGRESS_HELD: the posture in force, or the latched one with `true` -/
  posture : Option (Posture × Bool)
  modeShown : Option Mode
  claims : List ClaimReport
  tallies : Tallies
  deriving DecidableEq, Repr

/-- Contents of the STATUS reply (R177). -/
structure StatusReport where
  restartMark : Option StartCause
  dropped : Bool
  silent : Bool
  address : Nat
  source : AddressSource
  clock : Option ClockTime
  uptime : Nat
  egressActive : Bool
  byLine : Bool
  byCommand : Bool
  evacuate : Bool
  holdLeft : Timer
  pendingClear : Bool
  productVersion : Nat
  tariffVersion : Nat
  denyVersion : Nat
  pendingTariff : Option (Nat × ClockTime)
  settingsFault : Bool
  storing : Bool
  writeCount : Nat
  notices : Nat
  referrals : Nat
  deriving DecidableEq, Repr

/-- An open load as TABLE_QUERY reports it (R146). -/
structure LoadReport where
  kind : LoadKind
  version : Nat
  count : Nat
  next : Nat
  broken : Option Nat
  deriving DecidableEq, Repr

/-- Contents of the TABLE_QUERY SUMMARY reply (R146). -/
structure TableSummary where
  productVersion : Nat
  productCount : Nat
  tariffVersion : Nat
  pendingTariff : Option (Nat × ClockTime)
  denyVersion : Nat
  denyCount : Nat
  denyEdits : Nat
  allotCount : Nat
  load : Option LoadReport
  deriving DecidableEq, Repr

/-- What follows the reply code in a reply, as the owning rules give it. -/
inductive ReplyBody where
  | empty
  | polled (dropped : Bool) (left count : Nat) (items : List PollItem)
  | status (r : StatusReport)
  | marks (restartMark : Option StartCause) (dropped : Bool)
  | clockWas (t : Option ClockTime)
  | entered (b : Berth) (state : CallState)
  | callRecord (r : CallReport)
  | adjusted (b : Berth) (declared alighted excess aboard held headroom : Nat) (mark : Bool)
  | channel (r : ChannelReport)
  | service (c : Chan) (flag : ServiceFlag) (state : ChannelState)
  | released (c : Chan) (b : Berth) (headroom ahead : Nat) (mark : Bool)
  | restored (channels : List (Chan × Bool × ChannelState))
  | alreadyActive (was : Bool)
  | clearPending (holdLeft : Nat)
  | clearEnded
  | brokenAt (position : Nat)
  | failedTest (number : Nat)
  | committed (kind : LoadKind) (version count : Nat) (place : Option TariffPlace)
  | edited (changed : Nat)
  | summary (r : TableSummary)
  | product (e : Option ProductEntry)
  | deny (e : Option DenyEntry)
  | tariff (t : Option Tariff)
  /-- an entry with its state, or "absent" (R161, R162) -/
  | allotment (e : Option (Allotment × AllotState))
  /-- an entry with its state and the count of entries, or "absent" (R162) -/
  | allotmentAt (e : Option (Allotment × AllotState × Nat))
  | answered (id : Nat) (code : VerdictCode)
  | settings (values : List SettingValue)
  | setting (number : Nat) (before now : SettingValue)
  | reloaded (valid : Bool)
  deriving DecidableEq, Repr

/-- A reply frame: the part's own address, the request kind plus 80h, the reply code and the contents
(R174). -/
structure Reply where
  address : Nat
  kind : Nat
  code : ReplyCode
  body : ReplyBody
  deriving DecidableEq, Repr

end Sys2Proof.Machine
end

