-- ==== Sys2Proof/Machine/Formats.lean ====
section
/-! DEFINITION. The octets of the lines and of the stored image: the CRC-16, the frames, the PRESENT and
VERDICT bodies, the call record, and the settings image (11.7, R76, R172, R180). -/

namespace Sys2Proof.Machine

/-! ### CRC-16 and numbers -/

/-- One bit of the CRC-16 with polynomial 1021h. -/
def crcBit (r : BitVec 16) : BitVec 16 :=
  if r.msb then (r <<< 1) ^^^ 0x1021#16 else r <<< 1

/-- One octet of the CRC-16. PRESUMED (assumption 36): most significant bit first, with no reflection. -/
def crcOctet (r : BitVec 16) (o : Octet) : BitVec 16 :=
  let x := r ^^^ (o.setWidth 16 <<< 8)
  crcBit (crcBit (crcBit (crcBit (crcBit (crcBit (crcBit (crcBit x)))))))

/-- The CRC-16 of R76, R142, R172 and R180: polynomial 1021h, initial value FFFFh. PRESUMED (assumption 36): no
final XOR. -/
def crc16 (os : List Octet) : BitVec 16 := os.foldl crcOctet 0xFFFF#16

/-- A number in `n` octets, most significant octet first (11.7). -/
def octetsOf : Nat → Nat → List Octet
  | 0, _ => []
  | n + 1, v => octetsOf n (v / 256) ++ [BitVec.ofNat 8 v]

/-- The number that octets carry, most significant octet first (11.7). -/
def numberOf (os : List Octet) : Nat := os.foldl (fun a o => a * 256 + o.toNat) 0

/-- A signed figure in 4 octets, in two's complement (11.7). -/
def signedOf (os : List Octet) : Int :=
  let n := numberOf os
  if n < 2 ^ 31 then (n : Int) else (n : Int) - 2 ^ 32

/-- The 4 octets of a signed figure, in two's complement (11.7). -/
def signedOctets (i : Int) : List Octet := octetsOf 4 (i % 2 ^ 32).toNat

/-! ### Card contents (Table 11-4) -/

/-- The value part's 8 octets. -/
def ValuePart.ofOctets (os : List Octet) : ValuePart where
  balance := signedOf (os.take 4)
  daily := numberOf ((os.drop 4).take 2)
  day := numberOf ((os.drop 6).take 2)

/-- The last-boarding part's 13 octets. -/
def LastBoarding.ofOctets (os : List Octet) : LastBoarding where
  day := numberOf (os.take 2)
  secs := numberOf ((os.drop 2).take 4)
  line := numberOf ((os.drop 6).take 1)
  pier := numberOf ((os.drop 7).take 2)
  fare := numberOf ((os.drop 9).take 2)
  tag := numberOf ((os.drop 11).take 2)

/-- The octets that the presence flags add to the 11 octets always present. -/
def partOctets (flags : Nat) : Nat :=
  (if flags.testBit 0 then 8 else 0) + (if flags.testBit 1 then 1 else 0) +
  (if flags.testBit 2 then 2 else 0) + (if flags.testBit 3 then 13 else 0)

/-- The card contents that a PRESENT body carries, by the layout of Table 11-4; none where the length
does not agree with the length the presence flags give (R77, R90). -/
def Card.parse (os : List Octet) : Option Card :=
  let flags := numberOf ((os.drop 9).take 1)
  if os.length < 11 ∨ os.length ≠ 11 + partOctets flags then none
  else
    let p := os.drop 11
    let afterValue := p.drop (if flags.testBit 0 then 8 else 0)
    let afterRides := afterValue.drop (if flags.testBit 1 then 1 else 0)
    let afterPass := afterRides.drop (if flags.testBit 2 then 2 else 0)
    some {
      id := BitVec.ofNat 64 (numberOf (os.take 8))
      product := numberOf ((os.drop 8).take 1)
      blocked := decide (numberOf ((os.drop 10).take 1) ≠ 0)
      value := if flags.testBit 0 then some (ValuePart.ofOctets p) else none
      rides := if flags.testBit 1 then some (numberOf (afterValue.take 1)) else none
      passEnd := if flags.testBit 2 then some (numberOf (afterRides.take 2)) else none
      last := if flags.testBit 3 then some (LastBoarding.ofOctets afterPass) else none }

/-- The value part as octets. -/
def ValuePart.octets (v : ValuePart) : List Octet :=
  signedOctets v.balance ++ octetsOf 2 v.daily ++ octetsOf 2 v.day

/-- The last-boarding part as octets. -/
def LastBoarding.octets (l : LastBoarding) : List Octet :=
  octetsOf 2 l.day ++ octetsOf 4 l.secs ++ octetsOf 1 l.line ++ octetsOf 2 l.pier ++
  octetsOf 2 l.fare ++ octetsOf 2 l.tag

/-- The presence flags of a card. -/
def Card.flags (k : Card) : Nat :=
  (if k.value.isSome then 1 else 0) + (if k.rides.isSome then 2 else 0) +
  (if k.passEnd.isSome then 4 else 0) + (if k.last.isSome then 8 else 0)

/-- A card as the body of a PRESENT record (Table 11-4). -/
def Card.octets (k : Card) : List Octet :=
  octetsOf 8 k.id.toNat ++ octetsOf 1 k.product ++ octetsOf 1 k.flags ++
  octetsOf 1 (if k.blocked then 1 else 0) ++
  (k.value.map ValuePart.octets).getD [] ++ (k.rides.map (octetsOf 1)).getD [] ++
  (k.passEnd.map (octetsOf 2)).getD [] ++ (k.last.map LastBoarding.octets).getD []

/-- The card id that a WITHDRAW body carries; none where the body is not 8 octets long (R77). -/
def withdrawCard (os : List Octet) : Option CardId :=
  if os.length = 8 then some (BitVec.ofNat 64 (numberOf os)) else none

/-- The write tag and whether the result is OK, as a WRITE_RESULT body carries them; none where the body
is not 3 octets long or the result is neither 00h nor 01h (R77). -/
def writeResultOf (os : List Octet) : Option (Nat × Bool) :=
  if os.length = 3 then
    match numberOf (os.drop 2) with
    | 0 => some (numberOf (os.take 2), true)
    | 1 => some (numberOf (os.take 2), false)
    | _ => none
  else none

/-! ### Frames and the VERDICT body -/

/-- The sync pair of both kinds of line (R76, R172). -/
def syncPair : List Octet := [0xA9#8, 0x5C#8]

/-- A reader line frame of a kind and a body (R76). -/
def readerFrame (kind : Nat) (body : List Octet) : List Octet :=
  let covered := octetsOf 1 kind ++ octetsOf 1 body.length ++ body
  syncPair ++ covered ++ octetsOf 2 (crc16 covered).toNat

/-- A bus frame of an address, a kind and a body (R172, Table 11-3). -/
def busFrame (address kind : Nat) (body : List Octet) : List Octet :=
  let covered := octetsOf 1 address ++ octetsOf 1 kind ++ octetsOf 1 body.length ++ body
  syncPair ++ covered ++ octetsOf 2 (crc16 covered).toNat

/-- The verdict octet (Table 11-6). -/
def VerdictCode.octet : VerdictCode → Nat
  | .accept => 0x01 | .acceptFree => 0x02 | .denied => 0x03 | .passback => 0x04
  | .lowBalance => 0x05 | .expired => 0x06 | .exhausted => 0x07 | .wrongLine => 0x08
  | .full => 0x09 | .notBoarding => 0x0A | .notServed => 0x0B | .gangwayClosed => 0x0C
  | .badCard => 0x0D | .notReady => 0x0E | .refusedOnline => 0x0F | .unknownProduct => 0x10
  | .spent => 0x11 | .egress => 0x12

/-- The content flags of a VERDICT (Table 11-5). -/
def Verdict.flags (v : Verdict) : Nat :=
  (if v.balance.isSome then 1 else 0) +
  match v.writeBack with
  | none => 0
  | some w =>
    (if w.value.isSome then 2 else 0) + (if w.rides.isSome then 4 else 0) +
    (if w.last.isSome then 8 else 0) + (if w.block then 16 else 0)

/-- The VERDICT record body (Table 11-5). -/
def Verdict.octets (v : Verdict) : List Octet :=
  octetsOf 1 v.code.octet ++ octetsOf 2 v.fare ++ octetsOf 1 v.flags ++
  (v.writeBack.map fun w => octetsOf 2 w.tag).getD [] ++
  (v.balance.map signedOctets).getD [] ++
  (v.writeBack.map fun w =>
    (w.value.map ValuePart.octets).getD [] ++ (w.rides.map (octetsOf 1)).getD [] ++
    (w.last.map LastBoarding.octets).getD []).getD []

/-! ### The call record (Table 11-7) -/

/-- The state octet. -/
def CallState.octet : CallState → Nat
  | .vacant => 0 | .alongside => 1 | .boarding => 2 | .lastCall => 3 | .ended => 4

/-- The end reason octet. -/
def EndReason.octet : EndReason → Nat
  | .none => 0 | .castOff => 1 | .timed => 2 | .cancelled => 3 | .egress => 4

/-- A timestamp: a form octet, the day and the seconds, both 0 unless timed. -/
def Stamp.octets : Stamp → List Octet
  | .absent => octetsOf 1 0 ++ octetsOf 2 0 ++ octetsOf 4 0
  | .unknown => octetsOf 1 1 ++ octetsOf 2 0 ++ octetsOf 4 0
  | .timed t => octetsOf 1 2 ++ octetsOf 2 t.day ++ octetsOf 4 t.secs

/-- The call record of CALL_QUERY and CALL_COLLECT replies, after the reply code. -/
def CallReport.octets (r : CallReport) : List Octet :=
  octetsOf 1 r.berth.num ++ octetsOf 1 r.call.state.octet ++
  octetsOf 2 r.call.vessel ++ octetsOf 1 r.call.line ++ octetsOf 2 r.call.capacity ++
  octetsOf 2 r.call.declared ++
  octetsOf 2 r.call.boarded.paid ++ octetsOf 2 r.call.boarded.free ++
  octetsOf 2 r.call.boarded.account ++ octetsOf 2 r.call.boarded.allotment ++
  octetsOf 2 r.call.boarded.staff ++ octetsOf 2 r.call.boarded.unpaid ++
  octetsOf 2 r.call.alighted ++ octetsOf 2 r.call.excess ++ octetsOf 1 r.held ++
  octetsOf 4 r.aboard ++ octetsOf 2 r.headroom ++
  octetsOf 1 (if r.call.overCapacity then 1 else 0) ++
  octetsOf 4 r.call.fares ++ octetsOf 4 r.call.accountFares ++ octetsOf 2 r.call.dwellLimit ++
  r.call.opened.octets ++ r.call.boardingStarted.octets ++ r.call.lastCallAt.octets ++
  r.call.endedAt.octets ++ octetsOf 1 r.call.endReason.octet

/-! ### The settings image (R180) -/

/-- The value a berth assignment has as a setting. -/
def berthValue : Option Berth → SettingValue
  | none => .noBerth
  | some b => .num b.num

/-- The 31 working values in order of number (Table 12-1). -/
def Settings.values (s : Settings) : List SettingValue :=
  [.num s.busAddress, .num s.pierNumber,
   berthValue s.berthOf.c0, berthValue s.berthOf.c1, berthValue s.berthOf.c2, berthValue s.berthOf.c3,
   .num s.level.c0, .num s.level.c1, .num s.level.c2, .num s.level.c3,
   .num s.passWindow.c0, .num s.passWindow.c1, .num s.passWindow.c2, .num s.passWindow.c3,
   .posture s.posture.c0, .posture s.posture.c1, .posture s.posture.c2, .posture s.posture.c3,
   .num s.lastCallLevel, .num s.lastCallLimit, .num s.referralTimeout,
   .fallback s.fallbackUnknown, .fallback s.fallbackAccount, .fallback s.fallbackSpent,
   .num s.passbackInterval, .num s.rereleaseGrace, .num s.supervisionPeriod, .num s.suspendLimit,
   .num s.countReportPeriod, .num s.deskLevel, .num s.agingLimit]

/-- One value as the stored image keeps it: a form octet and two octets. DESIGN CHOICE, safe for every
image the part writes itself: the manual gives the image no layout (assumption 5). -/
def settingOctets : SettingValue → List Octet
  | .num n => octetsOf 1 0 ++ octetsOf 2 n
  | .noBerth => octetsOf 1 1 ++ octetsOf 2 0
  | .posture .opened => octetsOf 1 2 ++ octetsOf 2 0
  | .posture .closed => octetsOf 1 2 ++ octetsOf 2 1
  | .posture .asIs => octetsOf 1 2 ++ octetsOf 2 2
  | .fallback .accept => octetsOf 1 3 ++ octetsOf 2 0
  | .fallback .refuse => octetsOf 1 3 ++ octetsOf 2 1

/-- The CRC-16 that protects stored values (R180). -/
def imageCrc (values : List SettingValue) : BitVec 16 :=
  crc16 (values.foldr (fun v os => settingOctets v ++ os) [])

/-- The image of working settings, with its CRC-16 (R182). -/
def imageOf (s : Settings) : StoredImage := ⟨s.values, imageCrc s.values⟩

end Sys2Proof.Machine
end

