-- ==== Sys2Proof/Machine/State.lean ====
section
/-! DEFINITION. The state of the part: everything the manual gives it, as plain data, with the queue of
commands waiting; the reasons a step can stop; and the state right after reset. -/

namespace Sys2Proof.Machine

/-- Whether the supply is up. After SUPPLY_DIP the part holds itself inactive until it starts up again
(R185). -/
inductive Power where
  | running | inactive
  deriving DecidableEq, Repr

/-- The pier bus port: its receiver (R172), its address (R173), the reply waiting (R174) and the reply last begun to go out,
the start-up an accepted RESTART awaits (R178), the restart mark (R177) and host supervision (R179). -/
structure Bus where
  receiver : Receiver
  address : Nat
  source : AddressSource
  reply : Option Reply
  sent : Option Reply
  restartAwaited : Bool
  restartMark : Option StartCause
  supervision : Timer
  /-- the period, in seconds, that the supervision timer was last started with -/
  period : Nat
  silent : Bool
  deriving DecidableEq, Repr

/-- The notice queue, oldest first, with sequence numbers, the dropped mark and the sequence counter
(R175). -/
structure NoticeQueue where
  queue : List (Nat × Notice)
  dropped : Bool
  nextSeq : Nat
  deriving DecidableEq, Repr

/-- The lengths in octets that the manual does not give, needed by the 250-octet limit of a POLL reply
(R176): what a POLL reply holds before its items, and the contents of each kind of notice by its code. A
free value of the model: no command changes it, and no statement rests on its value (assumption 4). -/
structure NoticeLayout where
  pollHead : Nat
  contents : List Nat
  deriving DecidableEq, Repr

/-- The state of the ZB-4. -/
structure State where
  power : Power
  bus : Bus
  notices : NoticeQueue
  layout : NoticeLayout
  /-- milliseconds since start-up (R149) -/
  uptime : Nat
  /-- the pier clock: none while UNSET (R149) -/
  clock : Option ClockTime
  /-- milliseconds into the present second of the pier clock -/
  clockPhase : Nat
  calls : PerBerth Call
  callTimers : PerBerth CallTimers
  reportTimer : Timer
  claims : PerChan ChannelClaims
  channels : PerChan Channel
  ports : PerChan Port
  arbiter : Arbiter
  engine : Engine
  tables : Tables
  egress : Egress
  settings : SettingsStore
  /-- the commands waiting, first in first out -/
  pending : List Instr
  deriving DecidableEq, Repr

/-- Faults. The manual names no condition in which the part stops with a fault, so there is none: safe,
since no claim can rest on a fault. -/
inductive Fault where
  deriving DecidableEq, Repr

/-- Refusals. -/
inductive Refusal where
  /-- A command that has no meaning in this model yet. Raised by an arm of `exec` for a row not reached;
  no arm raises it. Safe: nothing is claimed of a refused command. -/
  | notModelled (mnemonic : String)
  deriving DecidableEq, Repr

/-- A channel right after reset, with its beams clear, its ramp safe and its reader DOWN (R75). -/
def Channel.atReset : Channel where
  state := .outOfService
  unlockIn := false
  unlockOut := false
  beamA := false
  beamB := false
  rampSafe := true
  tracker := .clear
  obstructionTimer := none
  obstructedAt := none
  suspensionTimer := none
  limitReached := false
  service := .inService
  modeShown := none
  tallies := .zero

/-- The lengths that State.reset holds: DESIGN CHOICE, unsafe, one octet for a code, a mark, a channel or
a berth and the widths of chapter 11 for the rest (assumption 4). -/
def NoticeLayout.atReset : NoticeLayout where
  pollHead := 4
  contents := [0, 13, 30, 6, 11, 10, 6, 5, 6, 15, 11, 6, 21, 20, 5, 37, 3, 6, 0, 19]

/-- The part right after the start-up of power-on, new from manufacture, with quiet lines: the address
straps read 0, every beam is clear, every ramp line reports safe and the evacuation line is inactive
(R185; assumption 2 for the lines). -/
def State.reset : State where
  power := .running
  bus :=
    { receiver := .hunting false, address := 1, source := .setting, reply := none, sent := none, restartAwaited := false,
      restartMark := some .powerOn, supervision := some (Config.startWindowS * 1000),
      period := Config.startWindowS, silent := false }
  notices :=
    { queue := [(1, .restarted .powerOn false 1 .setting 0)], dropped := false, nextSeq := 2 }
  layout := .atReset
  uptime := 0
  clock := none
  clockPhase := 0
  calls := .same .zeroed
  callTimers := .same .stopped
  reportTimer := none
  claims := .same .none
  channels := .same .atReset
  ports := .same .atStart
  arbiter := .atStart
  engine := .atStart
  tables := .atStart
  egress := .atStart false
  settings :=
    { working := .default, image := imageOf .default, writeCount := 0, storing := none, fault := false }
  pending := []

end Sys2Proof.Machine
end

