-- ==== Sys2Proof/Machine/Flags.lean ====
section
/-! DEFINITION. The accessors of the state and every figure and flag that is derived and not stored: the
aboard figure, held seats, headroom, the state of an allotment, the line of a channel's call. -/

namespace Sys2Proof.Machine

/-! ### Accessors -/

namespace State

/-- The call record of a berth. -/
def call (s : State) (b : Berth) : Call := s.calls.get b
/-- The timers of a berth's record. -/
def timersOf (s : State) (b : Berth) : CallTimers := s.callTimers.get b
/-- The claims of a channel. -/
def claimsOf (s : State) (c : Chan) : ChannelClaims := s.claims.get c
/-- The state of a channel. -/
def chan (s : State) (c : Chan) : Channel := s.channels.get c
/-- The reader port of a channel. -/
def port (s : State) (c : Chan) : Port := s.ports.get c
/-- The working settings. -/
def cfg (s : State) : Settings := s.settings.working
/-- The berth a channel is assigned to (R52). -/
def berthOf (s : State) (c : Chan) : Option Berth := s.settings.working.berthOf.get c
/-- A referral slot. -/
def slot (s : State) : Slot → Option Referral
  | .s0 => s.engine.slot0
  | .s1 => s.engine.slot1

/-- Replace a call record. -/
def setCall (s : State) (b : Berth) (k : Call) : State := { s with calls := s.calls.set b k }
/-- Replace a record's timers. -/
def setTimers (s : State) (b : Berth) (t : CallTimers) : State :=
  { s with callTimers := s.callTimers.set b t }
/-- Replace a channel's claims. -/
def setClaims (s : State) (c : Chan) (k : ChannelClaims) : State :=
  { s with claims := s.claims.set c k }
/-- Replace a channel's state. -/
def setChan (s : State) (c : Chan) (k : Channel) : State := { s with channels := s.channels.set c k }
/-- Replace a channel's reader port. -/
def setPort (s : State) (c : Chan) (p : Port) : State := { s with ports := s.ports.set c p }
/-- Replace the tallies of a channel. -/
def setTallies (s : State) (c : Chan) (t : Tallies) : State :=
  s.setChan c { s.chan c with tallies := t }
/-- Replace a referral slot. -/
def setSlot (s : State) (i : Slot) (r : Option Referral) : State :=
  match i with
  | .s0 => { s with engine := { s.engine with slot0 := r } }
  | .s1 => { s with engine := { s.engine with slot1 := r } }

end State

/-- A count one higher, saturating at 65535 (R2, R68). -/
def bump (n : Nat) : Nat := min (n + 1) Config.countMax

/-- A timer runs out at the end of its period: it runs, with nothing left (00_scope.md, Time). A run-out that
finds the timer stopped, or restarted in the meantime, is none. -/
def ranOut (t : Timer) : Bool := t = some 0

/-! ### Call states -/

/-- ALONGSIDE, BOARDING or LAST_CALL: the states in which a call is open. -/
def CallState.isOpen : CallState → Bool
  | .alongside | .boarding | .lastCall => true
  | .vacant | .ended => false

/-- BOARDING or LAST_CALL: the states in which seats are granted (R19). -/
def CallState.isBoarding : CallState → Bool
  | .boarding | .lastCall => true
  | .vacant | .alongside | .ended => false

/-! ### Seats (chapter 2) -/

/-- The sum of the six boarded counts. -/
def Boarded.sum (k : Boarded) : Nat := k.paid + k.free + k.account + k.allotment + k.staff + k.unpaid

/-- The boarded count of one kind one higher (R44). -/
def Boarded.count (k : Boarded) : ClaimKind → Boarded
  | .paid => { k with paid := bump k.paid }
  | .free => { k with free := bump k.free }
  | .account => { k with account := bump k.account }
  | .allotment => { k with allotment := bump k.allotment }
  | .staff => { k with staff := bump k.staff }

/-- The aboard figure: declared aboard plus boardings less alightings (R25). -/
def Call.aboard (k : Call) : Nat := k.declared + k.boarded.sum - k.alighted

/-- Seats of a claim granted and not yet passed (R27). -/
def Claim.unpassed (k : Claim) : Nat := k.granted - k.passed

/-- The unpassed seats that claims in a list hold on a berth's call. -/
def heldIn (b : Berth) : List Claim → Nat
  | [] => 0
  | k :: ks => (if k.berth = b then k.unpassed else 0) + heldIn b ks

/-- The unpassed seats that a channel's claims hold on a berth's call. -/
def ChannelClaims.heldOn (k : ChannelClaims) (b : Berth) : Nat :=
  heldIn b k.live + heldIn b k.provisional

/-- The number of claims of a channel, live and provisional together (R32). -/
def ChannelClaims.count (k : ChannelClaims) : Nat := k.live.length + k.provisional.length

namespace State

/-- The held seats of a call: the sum over its claims of seats granted less seats passed (R27). -/
def held (s : State) (b : Berth) : Nat :=
  (s.claimsOf .c0).heldOn b + (s.claimsOf .c1).heldOn b + (s.claimsOf .c2).heldOn b +
  (s.claimsOf .c3).heldOn b

/-- The aboard figure of a berth's call (R25). -/
def aboard (s : State) (b : Berth) : Nat := (s.call b).aboard

/-- The reported headroom: capacity less aboard less held, and 0 where that is below 0 (R27). -/
def headroom (s : State) (b : Berth) : Nat := (s.call b).capacity - s.aboard b - s.held b

/-- Aboard plus held above capacity: the condition of the over-capacity mark (R28). -/
def overFull (s : State) (b : Berth) : Bool := (s.call b).capacity < s.aboard b + s.held b

/-- The pass window of a channel's head claim as a timer: stopped without one, and while the channel is
SUSPENDED (R41). -/
def runningWindow (s : State) (c : Chan) : Timer :=
  match (s.claimsOf c).live with
  | [] => none
  | k :: _ => if (s.chan c).state = .suspended then none else some k.window

/-- The state of the call at a channel's berth; none for an unassigned channel. -/
def callStateOf (s : State) (c : Chan) : Option CallState := (s.berthOf c).map fun b => (s.call b).state

/-- The call's line at a channel: 0 where no call is open there (R105). -/
def lineOf (s : State) (c : Chan) : Nat :=
  match s.berthOf c with
  | none => 0
  | some b => if (s.call b).state.isOpen then (s.call b).line else 0

/-- Whether both call records are VACANT (R183). -/
def bothVacant (s : State) : Bool := (s.call .b0).state = .vacant && (s.call .b1).state = .vacant

/-- A timestamp taken now: unknown while the clock is UNSET (R4). -/
def stamp (s : State) : Stamp :=
  match s.clock with
  | none => .unknown
  | some t => .timed t

/-- Uptime in whole seconds (R149). -/
def uptimeSecs (s : State) : Nat := s.uptime / 1000

/-- The allotment entry of a token. -/
def allotOf (s : State) (token : CardId) : Option Allotment :=
  s.tables.allot.find? fun a => a.token = token

/-- The newest journey entry of a card (R120). -/
def newestEntry (s : State) (card : CardId) : Option JourneyEntry :=
  s.engine.journey.reverse.find? fun e => e.card = card

end State

/-! ### Allotments (R158) -/

/-- The derived state of an allotment entry under a clock. -/
def Allotment.stateAt (a : Allotment) (clock : Option ClockTime) : AllotState :=
  match a.expiry, clock with
  | some e, some now => if e.le now then .expired else if a.remaining = 0 then .spent else .active
  | _, _ => if a.remaining = 0 then .spent else .active

end Sys2Proof.Machine
end

