-- ==== Sys2Proof/Machine/Clockwork.lean ====
section
/-! DEFINITION. The passing of time: one millisecond of uptime, which every timer of the part counts down
(R149). It is what a step does while no command waits (assumption 3). -/

namespace Sys2Proof.Machine

/-- A timer one millisecond later. -/
def countDown (t : Timer) : Timer := t.map (· - 1)

/-- The command that a timer's running out is, where it runs out within this millisecond. -/
def firing (t : Timer) (i : Instr) : List Instr :=
  match t with
  | none => []
  | some left => if left ≤ 1 then [i] else []

/-- The timers of a call record one millisecond later (R15, R16). -/
def CallTimers.later (t : CallTimers) : CallTimers := ⟨countDown t.dwell, countDown t.lastCall⟩

/-- The timers of a channel one millisecond later (R60, R62). -/
def Channel.later (k : Channel) : Channel :=
  { k with
    obstructionTimer := countDown k.obstructionTimer
    suspensionTimer := countDown k.suspensionTimer }

/-- The timers of a reader port one millisecond later (R78). -/
def Port.later (p : Port) : Port :=
  { p with
    inactivity := countDown p.inactivity
    attach := countDown p.attach
    awaited := p.awaited.map fun w => { w with left := w.left - 1 } }

/-- A live queue one millisecond later: the head's pass window alone runs (R40). -/
def windowLater : List Claim → List Claim
  | [] => []
  | k :: ks => { k with window := k.window - 1 } :: ks

/-- A held referral one millisecond later (R151). -/
def Referral.later (r : Referral) : Referral := { r with left := r.left - 1 }

namespace State

/-- The claims of a channel one millisecond later. -/
def claimsLater (s : State) (c : Chan) : ChannelClaims :=
  if (s.chan c).state = .suspended then s.claimsOf c
  else { s.claimsOf c with live := windowLater (s.claimsOf c).live }

/-- The milliseconds to the next second of the pier clock, while it is SET (R149). -/
def secondTimer (s : State) : Timer := s.clock.map fun _ => 1000 - s.clockPhase

/-- The run-outs of a channel and its reader port within this millisecond. -/
def channelFirings (s : State) (c : Chan) : List Instr :=
  firing (s.port c).inactivity (.readerInactivityExpiry c) ++
  firing (s.port c).attach (.attachTimerExpiry c) ++
  firing ((s.port c).awaited.map AwaitedWrite.left) (.writeTimerExpiry c) ++
  firing (s.runningWindow c) (.passWindowExpiry c) ++
  firing (s.chan c).suspensionTimer (.suspensionTimerExpiry c) ++
  firing (s.chan c).obstructionTimer (.obstructionTimerExpiry c)

/-- The run-outs of a berth's record within this millisecond. -/
def berthFirings (s : State) (b : Berth) : List Instr :=
  firing (s.timersOf b).dwell (.dwellTimerExpiry b) ++
  firing (s.timersOf b).lastCall (.lastCallTimerExpiry b)

/-- Every run-out within this millisecond, in the order the model takes them (assumption 3). -/
def firings (s : State) : List Instr :=
  firing s.secondTimer .clockSecond ++
  s.berthFirings .b0 ++ s.berthFirings .b1 ++
  Chan.all.flatMap s.channelFirings ++
  firing (s.engine.slot0.map Referral.left) (.referralTimerExpiry .s0) ++
  firing (s.engine.slot1.map Referral.left) (.referralTimerExpiry .s1) ++
  firing s.bus.supervision .supervisionTimerExpiry ++
  firing (s.tables.load.map Load.idle) .loadInactivityExpiry ++
  firing s.egress.hold .minimumHoldExpiry ++
  firing s.reportTimer .reportTimerExpiry

/-- One millisecond passes: uptime rises, every running timer counts down, and the run-outs join the
queue of commands (R149). -/
def tick (s : State) : State :=
  { s with
    uptime := s.uptime + 1
    clockPhase :=
      if s.clock.isNone then s.clockPhase
      else if 1000 ≤ s.clockPhase + 1 then 0
      else s.clockPhase + 1
    callTimers := ⟨s.callTimers.b0.later, s.callTimers.b1.later⟩
    reportTimer := countDown s.reportTimer
    claims := .of s.claimsLater
    channels := .of fun c => (s.chan c).later
    ports := .of fun c => (s.port c).later
    engine := { s.engine with
      slot0 := s.engine.slot0.map Referral.later
      slot1 := s.engine.slot1.map Referral.later }
    bus := { s.bus with supervision := countDown s.bus.supervision }
    tables := { s.tables with load := s.tables.load.map fun l => { l with idle := l.idle - 1 } }
    egress := { s.egress with hold := countDown s.egress.hold }
    pending := s.pending ++ s.firings }

/-- What a step does while no command waits: time passes while the supply is up, and nothing happens while
the part holds itself inactive (R185; assumption 3). -/
def idle (s : State) : State :=
  match s.power with
  | .running => s.tick
  | .inactive => s

end State

end Sys2Proof.Machine
end

