-- ==== Sys2Proof/Machine/Operands.lean ====
section
/-! DEFINITION. How the fields of messages are read: the ranges of each field, the entries of a load,
and the settings by number. -/

namespace Sys2Proof.Machine

/-- A number within a range that includes both ends. -/
def within (n lo hi : Nat) : Bool := lo ≤ n && n ≤ hi

/-! ### Settings by number (Table 12-1) -/

/-- A berth assignment as a setting value: 0, 1 or NONE. -/
def berthSetting : SettingValue → Option (Option Berth)
  | .noBerth => some none
  | .num 0 => some (some .b0)
  | .num 1 => some (some .b1)
  | _ => none

/-- A number as a setting value, within its range. -/
def numSetting (lo hi : Nat) : SettingValue → Option Nat
  | .num n => if within n lo hi then some n else none
  | _ => none

/-- A posture as a setting value. -/
def postureSetting : SettingValue → Option Posture
  | .posture p => some p
  | _ => none

/-- A fallback as a setting value. -/
def fallbackSetting : SettingValue → Option Fallback
  | .fallback f => some f
  | _ => none

/-- COUNT_REPORT_PERIOD is 0 or 5..300 s. -/
def reportSetting : SettingValue → Option Nat
  | .num 0 => some 0
  | v => numSetting 5 300 v

/-- The settings with one setting replaced; none where the number is outside 1..31 or the value outside
the setting's range (Table 12-1). -/
def Settings.put (s : Settings) (number : Nat) (v : SettingValue) : Option Settings :=
  match number with
  | 1 => (numSetting 1 8 v).map fun n => { s with busAddress := n }
  | 2 => (numSetting 1 999 v).map fun n => { s with pierNumber := n }
  | 3 => (berthSetting v).map fun n => { s with berthOf := s.berthOf.set .c0 n }
  | 4 => (berthSetting v).map fun n => { s with berthOf := s.berthOf.set .c1 n }
  | 5 => (berthSetting v).map fun n => { s with berthOf := s.berthOf.set .c2 n }
  | 6 => (berthSetting v).map fun n => { s with berthOf := s.berthOf.set .c3 n }
  | 7 => (numSetting 0 7 v).map fun n => { s with level := s.level.set .c0 n }
  | 8 => (numSetting 0 7 v).map fun n => { s with level := s.level.set .c1 n }
  | 9 => (numSetting 0 7 v).map fun n => { s with level := s.level.set .c2 n }
  | 10 => (numSetting 0 7 v).map fun n => { s with level := s.level.set .c3 n }
  | 11 => (numSetting 3 30 v).map fun n => { s with passWindow := s.passWindow.set .c0 n }
  | 12 => (numSetting 3 30 v).map fun n => { s with passWindow := s.passWindow.set .c1 n }
  | 13 => (numSetting 3 30 v).map fun n => { s with passWindow := s.passWindow.set .c2 n }
  | 14 => (numSetting 3 30 v).map fun n => { s with passWindow := s.passWindow.set .c3 n }
  | 15 => (postureSetting v).map fun p => { s with posture := s.posture.set .c0 p }
  | 16 => (postureSetting v).map fun p => { s with posture := s.posture.set .c1 p }
  | 17 => (postureSetting v).map fun p => { s with posture := s.posture.set .c2 p }
  | 18 => (postureSetting v).map fun p => { s with posture := s.posture.set .c3 p }
  | 19 => (numSetting 0 7 v).map fun n => { s with lastCallLevel := n }
  | 20 => (numSetting 20 180 v).map fun n => { s with lastCallLimit := n }
  | 21 => (numSetting 500 5000 v).map fun n => { s with referralTimeout := n }
  | 22 => (fallbackSetting v).map fun f => { s with fallbackUnknown := f }
  | 23 => (fallbackSetting v).map fun f => { s with fallbackAccount := f }
  | 24 => (fallbackSetting v).map fun f => { s with fallbackSpent := f }
  | 25 => (numSetting 0 900 v).map fun n => { s with passbackInterval := n }
  | 26 => (numSetting 0 1800 v).map fun n => { s with rereleaseGrace := n }
  | 27 => (numSetting 2 60 v).map fun n => { s with supervisionPeriod := n }
  | 28 => (numSetting 10 120 v).map fun n => { s with suspendLimit := n }
  | 29 => (reportSetting v).map fun n => { s with countReportPeriod := n }
  | 30 => (numSetting 0 7 v).map fun n => { s with deskLevel := n }
  | 31 => (numSetting 1 10 v).map fun n => { s with agingLimit := n }
  | _ => none

/-- The value of one setting by number, 1..31. -/
def Settings.value? (s : Settings) (number : Nat) : Option SettingValue :=
  if number = 0 then none else s.values[number - 1]?

/-- Values taken in order of number from `first` on; none as soon as one is out of range. -/
def Settings.putFrom (s : Settings) (first : Nat) : List SettingValue → Option Settings
  | [] => some s
  | v :: vs => (s.put first v).bind fun t => t.putFrom (first + 1) vs

/-- The settings that an image carries, where it is valid: the CRC matches, there are 31 values and each
lies in its range (R184). -/
def loadImage (i : StoredImage) : Option Settings :=
  if i.values.length = 31 ∧ i.crc = imageCrc i.values then Settings.default.putFrom 1 i.values
  else none

/-- The channel whose CHANNEL_BERTH a setting number names (Table 12-1). -/
def berthSettingChan : Nat → Option Chan
  | 3 => some .c0 | 4 => some .c1 | 5 => some .c2 | 6 => some .c3 | _ => none

/-! ### Entries of a load (R139 to R141) -/

/-- The range of the entry count announced for a kind of load (R139). -/
def loadCountOk (kind : LoadKind) (count : Nat) : Bool :=
  match kind with
  | .product => within count 1 48
  | .tariff => within count 72 76
  | .deny => count ≤ Config.denySize

/-- Whether an entry is one of a load's kind, by its layout. -/
def entryOfKind (kind : LoadKind) : EntryContent → Bool
  | .product .. => kind = .product
  | .deny .. => kind = .deny
  | .general .. | .line .. | .cls .. | .band .. | .unknownTariff => kind = .tariff

/-- Lines 1..63, each above the one before it (R141). -/
def linesRising (prev : Nat) : List Nat → Bool
  | [] => true
  | l :: ls => prev < l && l ≤ 63 && linesRising l ls

/-- A line set is ALL, or 1 to 16 lines rising (R141). -/
def lineSetOk : LineSet → Bool
  | .all => true
  | .lines ls => within ls.length 1 16 && linesRising 0 ls

/-- The checks of Table 8-3 for the entry at a position of a load, given the entry before it. -/
def entryOk (position : Nat) (prev : Option EntryContent) (e : EntryContent) : Bool :=
  match e with
  | .product number kind cls lines =>
    within number 1 255 && kind.isSome && cls ≤ 7 && lineSetOk lines &&
    (match prev with
     | some (.product before _ _ _) => before < number
     | _ => true)
  | .deny id reason action =>
    id ≠ 0 && reason.isSome && action.isSome &&
    (match prev with
     | some (.deny before _ _) => before.toNat < id.toNat
     | _ => true)
  | .general effective unit window creditCap overdraft =>
    position = 0 && effective.day ≤ Config.lastDay && effective.secs ≤ Config.lastSecond &&
    (unit = 1 || unit = 5 || unit = 10) && window ≤ 180 && creditCap ≤ 2000 && overdraft ≤ 500
  | .line number fare => within position 1 63 && number = position && fare ≤ 2000
  | .cls number discount cap =>
    within position 64 71 && number = position - 64 && discount ≤ 100 && cap ≤ 10000
  | .band start stop multiplier =>
    within position 72 75 && start ≤ 1439 && start < stop && stop ≤ 1440 &&
    within multiplier 100 250 &&
    (match prev with
     | some (.band _ before _) => before ≤ start
     | _ => true)
  | .unknownTariff => false

/-- The number of segments of a load (R140). -/
def segmentsOf (count : Nat) : Nat := (count + Config.segmentSize - 1) / Config.segmentSize

/-- The number of entries the segment at an index must carry (R140, test 4). -/
def segmentEntries (count index : Nat) : Nat :=
  min Config.segmentSize (count - Config.segmentSize * index)

/-- The product table that entries make (R142). -/
def productEntries : List LoadEntry → List ProductEntry
  | [] => []
  | e :: es =>
    match e.content with
    | .product number (some kind) cls lines => ⟨number, kind, cls, lines⟩ :: productEntries es
    | _ => productEntries es

/-- The deny list that entries make (R142). -/
def denyEntries : List LoadEntry → List DenyEntry
  | [] => []
  | e :: es =>
    match e.content with
    | .deny id (some reason) (some action) => ⟨id, reason, action⟩ :: denyEntries es
    | _ => denyEntries es

/-- A tariff with one entry of its load taken into it (R137, R141). -/
def Tariff.take (t : Tariff) (e : LoadEntry) : Tariff :=
  match e.content with
  | .general effective unit window creditCap overdraft => { t with
      effective := effective
      unit := unit
      window := window
      creditCap := creditCap
      overdraft := overdraft }
  | .line _ fare => { t with base := t.base ++ [fare] }
  | .cls _ discount cap => { t with classes := t.classes ++ [⟨discount, cap⟩] }
  | .band start stop multiplier => { t with bands := t.bands ++ [⟨start, stop, multiplier⟩] }
  | _ => t

/-- The tariff that entries make, under the load's version (R142). -/
def tariffOf (version : Nat) (es : List LoadEntry) : Tariff :=
  es.foldl Tariff.take ⟨version, ⟨0, 0⟩, [], [], [], 1, 0, 0, 0⟩

/-! ### Card fields (R106) -/

/-- Stage 1's ranges: a card id not 0, product number 1..255, and Table 6-3 for the parts present. -/
def Card.dataOk (k : Card) : Bool :=
  k.id ≠ 0 && within k.product 1 255 &&
  (match k.value with
   | none => true
   | some v => decide (-9999 ≤ v.balance ∧ v.balance ≤ 99999)) &&
  (match k.last with
   | none => true
   | some l =>
     l.secs ≤ Config.lastSecond && within l.line 1 63 && within l.pier 1 999 && l.fare ≤ Config.maxFare)

/-- The balance as presented, where a value part is present (R89). -/
def Card.balance (k : Card) : Option Int := k.value.map (·.balance)

end Sys2Proof.Machine
end

