-- ==== Sys2Proof/Machine/Ops.lean ====
section
/-! DEFINITION. The named operations the commands share: queuing notices, sending reader records and
verdicts, the journey list, the allotment figures, and the claim table with its grants and endings. -/

namespace Sys2Proof.Machine

namespace State

/-! ### Notices (R175) -/

/-- Queue a notice under the next sequence number, or drop it and set the dropped mark where the queue
is full (R175). -/
def queue (s : State) (n : Notice) : State :=
  if s.notices.queue.length < Config.noticeQueueSize then
    { s with notices := { s.notices with
        queue := s.notices.queue ++ [(s.notices.nextSeq, n)]
        nextSeq := if s.notices.nextSeq = 65535 then 1 else s.notices.nextSeq + 1 } }
  else { s with notices := { s.notices with dropped := true } }

/-- Queue a notice where a condition holds. -/
def queueIf (s : State) (p : Bool) (n : Notice) : State := if p then s.queue n else s

/-- Queue several notices in order. -/
def queueAll (s : State) (ns : List Notice) : State := ns.foldl queue s

/-- Queue CALL_STATE with the figures computed after the change (R20). For an entry to ENDED the
headroom is the one that no held seat lowers. -/
def queueCallState (s : State) (b : Berth) (vessel : Nat) (left : CallState) (cause : CallCause) : State :=
  let k := s.call b
  let headroom := if k.state = .ended then k.capacity - k.aboard else s.headroom b
  let reason := if k.state = .ended then k.endReason else .none
  s.queue (.callState b vessel left k.state cause reason k.aboard headroom)

/-- Set the over-capacity mark with its cause where it is clear and aboard plus held exceeds capacity,
and queue OVER_CAPACITY (R28). -/
def markIfOver (s : State) (b : Berth) (cause : MarkCause) : State :=
  if s.overFull b && !(s.call b).overCapacity then
    (s.setCall b { s.call b with overCapacity := true }).queue
      (.overCapacity b (s.call b).vessel cause (s.call b).capacity (s.aboard b) (s.held b))
  else s

/-- Queue HEADROOM for a berth where an event moved the reported headroom between 0 and above 0 while
the call stayed open (R21). -/
def queueHeadroom (before s : State) (b : Berth) : State :=
  if (before.call b).state.isOpen && (s.call b).state.isOpen &&
      ((before.headroom b = 0) != (s.headroom b = 0)) then
    s.queue (.headroom b (s.call b).vessel (s.headroom b ≠ 0) (s.headroom b))
  else s

/-! ### Reader lines (R82 to R86) -/

/-- A record begins to go out on a channel's reader line. A VERDICT other than ACCEPT and ACCEPT_FREE
moves the refusals tally (R69, R82). -/
def startRecord (s : State) (c : Chan) (r : ReaderRecord) : State :=
  let t := s.setPort c { s.port c with sending := some r }
  match r with
  | .verdict v =>
    if v.code.isRefusal then
      t.setTallies c { (t.chan c).tallies with refusals := bump (t.chan c).tallies.refusals }
    else t
  | _ => t

/-- A composed record goes out, or waits for the frame going out to end (R82). -/
def sendRecord (s : State) (c : Chan) (r : ReaderRecord) : State :=
  if (s.port c).sending.isNone then s.startRecord c r
  else s.setPort c { s.port c with waiting := (s.port c).waiting ++ [r] }

/-- A verdict reaches the port: it is sent for the outstanding presentation, which stops being
outstanding, and a write-back starts the awaited write (R84, R85). -/
def deliver (s : State) (c : Chan) (v : Verdict) : State :=
  match (s.port c).outstanding with
  | none => s
  | some _ =>
    let awaited :=
      match v.writeBack with
      | none => (s.port c).awaited
      | some w => some ⟨w.tag, Config.writeMs⟩
    (s.setPort c { s.port c with outstanding := none, awaited := awaited }).sendRecord c (.verdict v)

end State

/-- A verdict with fare 0, the balance as presented and no write-back (R89, Table 6-6). -/
def plainVerdict (card : Card) (code : VerdictCode) : Verdict := ⟨code, 0, card.balance, none⟩

/-- The DESK_RESULT of a refusal by the arbiter: the verdict code, the card id and the line (R89). -/
def deskRefusal (card : Card) (line : Nat) (code : VerdictCode) : DeskResult :=
  ⟨.verdict code, card.id, none, line, none, none, none, none⟩

namespace State

/-- Refuse a channel's pending presentation, if any: its place becomes empty and the verdict goes to the
reader port (R89). -/
def refusePending (s : State) (c : Chan) (code : VerdictCode) : State :=
  match s.arbiter.places.get c with
  | none => s
  | some p =>
    { s with arbiter := { s.arbiter with places := s.arbiter.places.set c none } }.deliver c
      (plainVerdict p.card code)

/-- Refuse the pending desk check, if any: DESK_RESULT is queued and the desk occupation cleared (R89). -/
def refuseDesk (s : State) (code : VerdictCode) : State :=
  match s.arbiter.desk with
  | none => s
  | some p =>
    { s with arbiter := { s.arbiter with desk := none, deskOccupied := false } }.queue
      (.deskResult (deskRefusal p.card p.line code))

end State

/-! ### The journey list (R117 to R119) -/

/-- Change the last element of a list that meets a test. -/
def modifyLast {α : Type} (p : α → Bool) (f : α → α) : List α → List α
  | [] => []
  | x :: xs => if xs.any p then x :: modifyLast p f xs else if p x then f x :: xs else x :: xs

/-- Whether an entry is the one of a claim: by card id and write tag, or, for a claim without a tag, by
card id and outcome ADMITTED (R119). -/
def JourneyEntry.isOf (id : CardId) (tag : Option Nat) (e : JourneyEntry) : Bool :=
  e.card = id &&
  match tag with
  | some t => e.tag = t
  | none => e.outcome = .admitted

/-- The outcome after a lapse, for an entry that is ADMITTED (Table 6-8). -/
def lapseOutcome (passed : Nat) (e : JourneyEntry) : JourneyOutcome :=
  if e.outcome ≠ .admitted then e.outcome
  else if 0 < passed then .boarded
  else if e.charge ≠ .none then .paidNotPassed
  else .resolved

namespace State

/-- Replace the journey list. -/
def setJourney (s : State) (j : List JourneyEntry) : State :=
  { s with engine := { s.engine with journey := j } }

/-- Write a new journey entry in the newest place; with 256 present the oldest is removed (R117). -/
def writeJourney (s : State) (e : JourneyEntry) : State :=
  let kept := if s.engine.journey.length < Config.journeySize then s.engine.journey
    else s.engine.journey.drop 1
  s.setJourney (kept ++ [e])

/-- The charge that a channel's write note gives for a tag; NONE where the note has another (R115). -/
def chargeFor (s : State) (c : Chan) (tag : Nat) : Charge :=
  match s.engine.notes.get c with
  | some n => if n.tag = tag then n.charge else .none
  | none => .none

/-- The journey entry that a confirmation or an outcome unknown of a claim writes, where the claim
carries a card id (R118). -/
def recordWrite (s : State) (c : Chan) (k : Claim) (tag : Nat) (outcome : JourneyOutcome) : State :=
  match k.card with
  | none => s
  | some id =>
    s.writeJourney ⟨id, s.uptime, k.berth, (s.call k.berth).line, outcome, k.fare, s.chargeFor c tag, tag⟩

/-- The change of outcome at a claim's lapse (Table 6-8). -/
def recordLapse (s : State) (k : Claim) : State :=
  match k.card with
  | none => s
  | some id =>
    s.setJourney (modifyLast (JourneyEntry.isOf id k.tag)
      (fun e => { e with outcome := lapseOutcome k.passed e }) s.engine.journey)

/-- The change of outcome when a claim's last seat is passed (Table 6-8). -/
def recordPassed (s : State) (k : Claim) : State :=
  match k.card with
  | none => s
  | some id =>
    s.setJourney (modifyLast (JourneyEntry.isOf id k.tag)
      (fun e => if e.outcome = .admitted then { e with outcome := .boarded } else e) s.engine.journey)

/-! ### Allotment figures (R160) -/

/-- Change the allotment entry of a token. -/
def modAllot (s : State) (token : CardId) (f : Allotment → Allotment) : State :=
  { s with tables := { s.tables with
      allot := s.tables.allot.map fun a => if a.token = token then f a else a } }

/-- Change the allotment a claim's seats came from, if any. -/
def modClaimAllot (s : State) (k : Claim) (f : Allotment → Allotment) : State :=
  match k.allot with
  | none => s
  | some token => s.modAllot token f

end State

/-- Seats granted: from remaining to held. -/
def Allotment.grant (n : Nat) (a : Allotment) : Allotment :=
  { a with remaining := a.remaining - n, held := a.held + n }

/-- Unpassed seats returned: from held back to remaining. -/
def Allotment.giveBack (n : Nat) (a : Allotment) : Allotment :=
  { a with remaining := a.remaining + n, held := a.held - n }

/-- One seat passed: from held to passed. -/
def Allotment.pass (a : Allotment) : Allotment := { a with held := a.held - 1, passed := a.passed + 1 }

/-- Total and remaining raised by extra seats. -/
def Allotment.extend (n : Nat) (a : Allotment) : Allotment :=
  { a with total := a.total + n, remaining := a.remaining + n }

/-! ### The claim table (R32 to R49) -/

/-- The first claim with a write tag, and the claims without it. -/
def takeTag (tag : Nat) : List Claim → Option (Claim × List Claim)
  | [] => none
  | k :: ks =>
    if k.tag = some tag then some (k, ks)
    else (takeTag tag ks).map fun r => (r.1, k :: r.2)

/-- A live queue whose first claim takes a pass window as it becomes head (R40). -/
def promote (window : Nat) : List Claim → List Claim
  | [] => []
  | k :: ks => { k with window := window } :: ks

/-- A claim joins the tail of a live queue; into an empty queue it becomes head with a fresh window, and
elsewhere it has none (R40). -/
def joinLive (window : Nat) (live : List Claim) (k : Claim) : List Claim :=
  match live with
  | [] => [{ k with window := window }]
  | _ => live ++ [{ k with window := 0 }]

namespace State

/-- The pass window of a channel in milliseconds, by the setting in force (R40). -/
def windowOf (s : State) (c : Chan) : Nat := s.cfg.passWindow.get c * 1000

/-- The unpassed seats of an ending claim go back to its allotment (R37, R42). The call's held seats
fall with the claim's removal from the claim table. -/
def returnSeats (s : State) (k : Claim) : State := s.modClaimAllot k (Allotment.giveBack k.unpassed)

/-- The effects of a lapse beyond the claim's removal: seats returned, journey entry changed (R42). -/
def lapseEffects (s : State) (k : Claim) : State := (s.returnSeats k).recordLapse k

/-- The effects of a cancellation with outcome unknown beyond the claim's removal (R38). -/
def unknownEffects (s : State) (c : Chan) (k : Claim) : State :=
  match k.tag with
  | none => s.returnSeats k
  | some tag => (s.returnSeats k).recordWrite c k tag .uncertain

/-- The head claim of a channel lapses and the next live claim becomes head (R42, R43). -/
def lapseHead (s : State) (c : Chan) : State :=
  match (s.claimsOf c).live with
  | [] => s
  | k :: ks =>
    (s.setClaims c { s.claimsOf c with live := promote (s.windowOf c) ks }).lapseEffects k

/-- Add a confirmed claim's fare to the total of its kind (R3, R36). -/
def countFare (s : State) (k : Claim) : State :=
  let call := s.call k.berth
  match k.kind with
  | .account =>
    s.setCall k.berth { call with accountFares := min (call.accountFares + k.fare) Config.fareTotalMax }
  | _ => s.setCall k.berth { call with fares := min (call.fares + k.fare) Config.fareTotalMax }

/-- The write done event: the PROVISIONAL claim of the channel with the tag, if any, is confirmed (R36,
R39). -/
def writeDone (s : State) (c : Chan) (tag : Nat) : State :=
  match takeTag tag (s.claimsOf c).provisional with
  | none => s
  | some (k, rest) =>
    ((s.setClaims c ⟨joinLive (s.windowOf c) (s.claimsOf c).live k, rest⟩).countFare k).recordWrite
      c k tag .admitted

/-- The write failed event: the PROVISIONAL claim of the channel with the tag, if any, is cancelled (R37,
R39). -/
def writeFailed (s : State) (c : Chan) (tag : Nat) : State :=
  match takeTag tag (s.claimsOf c).provisional with
  | none => s
  | some (k, rest) => (s.setClaims c { s.claimsOf c with provisional := rest }).returnSeats k

/-- The write's outcome unknown event: the PROVISIONAL claim of the channel with the tag, if any, is
cancelled and an UNCERTAIN entry written (R38, R39). -/
def writeUnknown (s : State) (c : Chan) (tag : Nat) : State :=
  match takeTag tag (s.claimsOf c).provisional with
  | none => s
  | some (k, rest) => (s.setClaims c { s.claimsOf c with provisional := rest }).unknownEffects c k

/-- End every claim of a channel that meets a test, at once: live claims lapse, oldest first, and
provisional claims are cancelled with outcome unknown (R48, R49). -/
def endClaims (s : State) (c : Chan) (p : Claim → Bool) : State :=
  let k := s.claimsOf c
  let cleared := s.setClaims c
    ⟨k.live.filter fun x => !p x, k.provisional.filter fun x => !p x⟩
  (k.provisional.filter p).foldl (fun t x => t.unknownEffects c x)
    ((k.live.filter p).foldl lapseEffects cleared)

end State

/-- A request for seats (R33). -/
structure SeatRequest where
  channel : Chan
  kind : ClaimKind
  seats : Nat
  card : Option CardId
  fare : Nat
  allot : Option CardId
  /-- the tag of the write-back the verdict carries, if it carries one -/
  tag : Option Nat
  partialOk : Bool
  forced : Bool
  deriving DecidableEq, Repr

/-- The call table's answer to a request (R33). -/
inductive SeatAnswer where
  | granted (seats : Nat)
  | noHeadroom
  | channelFull
  | notBoarding
  deriving DecidableEq, Repr

namespace State

/-- The seats the headroom test grants: those asked, or the headroom for a partial request, or one for a
forced request; none where the answer is NO_HEADROOM (R33, test 3). -/
def seatsGranted (s : State) (b : Berth) (r : SeatRequest) : Option Nat :=
  if r.seats ≤ s.headroom b then some r.seats
  else if r.partialOk && 0 < s.headroom b then some (s.headroom b)
  else if r.forced then some 1
  else none

/-- The claim a grant creates (R34). -/
def newClaim (s : State) (b : Berth) (r : SeatRequest) (seats : Nat) : Claim where
  berth := b
  kind := r.kind
  granted := seats
  passed := 0
  card := r.card
  fare := r.fare
  allot := r.allot
  tag := r.tag
  grantUptime := s.uptimeSecs
  window := 0

/-- Enter a granted claim: PROVISIONAL where a write-back is carried, else LIVE at the tail of the live
queue (R34). -/
def enterClaim (s : State) (c : Chan) (k : Claim) : State :=
  let now := s.claimsOf c
  let entered : ChannelClaims :=
    if k.tag.isSome then { now with provisional := now.provisional ++ [k] }
    else { now with live := joinLive (s.windowOf c) now.live k }
  (s.setClaims c entered).modClaimAllot k (Allotment.grant k.granted)

/-- Take a request for seats (R33, R34). -/
def requestSeats (s : State) (r : SeatRequest) : State × SeatAnswer :=
  match s.berthOf r.channel with
  | none => (s, .notBoarding)
  | some b =>
    if !(s.call b).state.isBoarding then (s, .notBoarding)
    else if Config.claimsPerChannel ≤ (s.claimsOf r.channel).count then (s, .channelFull)
    else
      match s.seatsGranted b r with
      | none => (s, .noHeadroom)
      | some n => (s.enterClaim r.channel (s.newClaim b r n), .granted n)

end State

end Sys2Proof.Machine
end

