-- ==== Sys2Proof/Machine/Channels.lean ====
section
/-! DEFINITION. What the channels do as part of every event: derive their states, drive their barrier
lines, report changes, refuse pending presentations and show their modes (chapter 3, R96). -/

namespace Sys2Proof.Machine

namespace State

/-! ### Derivation (R54, R56, R70) -/

/-- Steps 2 to 7 of the derivation of a channel's state (Table 3-3). -/
def ordinaryState (s : State) (c : Chan) : ChannelState :=
  match s.callStateOf c with
  | none => if (s.claimsOf c).live.isEmpty then .outOfService else .released
  | some k =>
    if k.isOpen && !(s.chan c).rampSafe then .suspended
    else if !(s.claimsOf c).live.isEmpty then .released
    else if (s.chan c).service = .outOfService || (s.port c).line ≠ .up then .outOfService
    else
      match k with
      | .vacant | .ended => .closed
      | .alongside => .exitFree
      | .boarding | .lastCall => .admitting

/-- The derivation of a channel's state (Table 3-3). -/
def deriveState (s : State) (c : Chan) : ChannelState :=
  if s.egress.active || (s.egress.latch.get c).isSome then .egressHeld else s.ordinaryState c

/-- The unlock lines, in and out, of a state below EGRESS_HELD (Table 3-4). -/
def ordinaryLines (s : State) (c : Chan) (st : ChannelState) : Bool × Bool :=
  match st with
  | .released => (true, true)
  | .exitFree | .admitting => (false, true)
  | .outOfService =>
    match s.callStateOf c with
    | none => (false, false)
    | some k => (false, k.isOpen)
  | .egressHeld | .suspended | .closed => (false, false)

/-- The unlock lines, in and out, that a channel drives in a state (Table 3-4). -/
def lines (s : State) (c : Chan) (st : ChannelState) : Bool × Bool :=
  match st with
  | .egressHeld =>
    match s.egress.posture.get c with
    | some .opened => (true, true)
    | some .closed => (false, false)
    | some .asIs => s.ordinaryLines c (s.ordinaryState c)
    | none =>
      match s.egress.latch.get c with
      | some .opened => (true, true)
      | _ => (false, false)
  | _ => s.ordinaryLines c st

/-- Whether presentations of a channel are refused at LAST_CALL: the call of its berth is in LAST_CALL and
its level at or below LAST_CALL_LEVEL (R70, R88). -/
def belowLastCall (s : State) (c : Chan) : Bool :=
  s.callStateOf c = some .lastCall && s.cfg.level.get c ≤ s.cfg.lastCallLevel

/-- The reported headroom of a channel's call is 0 (R70). -/
def noRoomAt (s : State) (c : Chan) : Bool :=
  match s.berthOf c with
  | none => true
  | some b => s.headroom b = 0

/-- The display mode of a channel, from its derived state (Table 3-6). -/
def displayMode (s : State) (c : Chan) : Mode :=
  match (s.chan c).state with
  | .egressHeld => .egress
  | .suspended => .suspended
  | .outOfService => .out
  | .closed | .exitFree => .closed
  | .released | .admitting =>
    if (s.chan c).service = .outOfService || s.cfg.level.get c = 0 then .out
    else if s.belowLastCall c then .closed
    else if s.noRoomAt c then .full
    else .opened

/-! ### The channel's part of an event (R55, R62, R63, R71, R96) -/

/-- The verdict that a new channel state gives a pending presentation (R96). -/
def stateRefusal : ChannelState → Option VerdictCode
  | .egressHeld => some .egress
  | .suspended => some .gangwayClosed
  | .outOfService => some .notServed
  | .closed | .exitFree => some .notBoarding
  | .released | .admitting => none

/-- A channel takes its derived state and its lines. Entering SUSPENDED starts the suspension timer and
clears the limit-reached mark; leaving it stops the timer (R62, R63). -/
def takeState (s : State) (c : Chan) : State :=
  let k := s.chan c
  let st := s.deriveState c
  let l := s.lines c st
  let enters := st = .suspended && k.state ≠ .suspended
  s.setChan c { k with
    state := st
    unlockIn := l.1
    unlockOut := l.2
    suspensionTimer :=
      if enters then some (s.cfg.suspendLimit * 1000)
      else if st = .suspended then k.suspensionTimer
      else none
    limitReached := if enters then false else k.limitReached }

/-- CHANNEL_STATE is queued where the state or a line changed (R55). -/
def reportState (old s : State) (c : Chan) : State :=
  let k := old.chan c
  let n := s.chan c
  if k.state ≠ n.state || k.unlockIn ≠ n.unlockIn || k.unlockOut ≠ n.unlockOut then
    s.queue (.channelState c (s.berthOf c) k.state n.state n.unlockIn n.unlockOut)
  else s

/-- The arbiter, told of a change of state, refuses the channel's pending presentation where the new
state does not serve it (R96). -/
def tellArbiter (old s : State) (c : Chan) : State :=
  if (old.chan c).state = (s.chan c).state then s
  else
    match stateRefusal (s.chan c).state with
    | none => s
    | some code => s.refusePending c code

/-- Where the reader line is UP and the mode differs from the mode shown, one MODE record is sent (R71). -/
def showMode (s : State) (c : Chan) : State :=
  let m := s.displayMode c
  if (s.port c).line = .up && (s.chan c).modeShown ≠ some m then
    (s.setChan c { s.chan c with modeShown := some m }).sendRecord c (.mode m)
  else s

/-- A channel's whole part of an event: its state anew, its notice, the arbiter, its reader's mode. -/
def settleChannel (s : State) (c : Chan) : State :=
  let taken := s.takeState c
  let reported := reportState s taken c
  (tellArbiter s reported c).showMode c

/-- The four channels in order 0 to 3 (R55). -/
def settleChannels (s : State) : State :=
  (((s.settleChannel .c0).settleChannel .c1).settleChannel .c2).settleChannel .c3

/-- How an event ends: the HEADROOM notices of both calls, the notices that stand after them, then the
channels (R21, R55, R160). DESIGN CHOICE (assumption 27): where one event crosses both calls' headroom, the
notice of berth 0 comes before that of berth 1. -/
def settle (before s : State) (after : List Notice) : State :=
  ((queueHeadroom before (queueHeadroom before s .b0) .b1).queueAll after).settleChannels

/-- A SETUP with the channel number, the pier number and the mode computed now, which becomes the mode
shown (R72, R79). -/
def sendSetup (s : State) (c : Chan) : State :=
  let m := s.displayMode c
  (s.setChan c { s.chan c with modeShown := some m }).sendRecord c (.setup c.num s.cfg.pierNumber m)

end State

/-! ### The beam tracker (R57) -/

/-- The move of the beam tracker at a beam event, and the passage it completes; none for an event that
cannot occur in the state (Table 3-5). DEDUCED (assumption 34): the table prints the move from SPANNED_OUT to
LEAVING_OUT under "B breaks", where B is broken already; the text of R57 gives it when B clears. -/
def Tracker.move : Tracker → Beam → Bool → Option (Tracker × Option Direction)
  | .clear, .shore, true => some (.outer, none)
  | .clear, .vessel, true => some (.inner, none)
  | .outer, .shore, false => some (.clear, none)
  | .outer, .vessel, true => some (.spannedIn, none)
  | .inner, .shore, true => some (.spannedOut, none)
  | .inner, .vessel, false => some (.clear, none)
  | .spannedIn, .shore, false => some (.leavingIn, none)
  | .spannedIn, .vessel, false => some (.outer, none)
  | .spannedOut, .shore, false => some (.inner, none)
  | .spannedOut, .vessel, false => some (.leavingOut, none)
  | .leavingIn, .shore, true => some (.spannedIn, none)
  | .leavingIn, .vessel, false => some (.clear, some .inward)
  | .leavingOut, .shore, false => some (.clear, some .outward)
  | .leavingOut, .vessel, true => some (.spannedOut, none)
  | _, _, _ => none

/-- The state of the tracker that two beams show (R58). -/
def Tracker.found : Bool → Bool → Tracker
  | false, false => .clear
  | true, false => .outer
  | false, true => .inner
  | true, true => .spannedIn

namespace State

/-- A channel takes a filtered beam level and the tracker's new state; leaving CLEAR starts the
obstruction timer, and CLEAR stops it and clears the flag (R60). -/
def takeBeam (s : State) (c : Chan) (beam : Beam) (broken : Bool) (t : Tracker) : State :=
  let k := s.chan c
  s.setChan c { k with
    beamA := if beam = .shore then broken else k.beamA
    beamB := if beam = .vessel then broken else k.beamB
    tracker := t
    obstructionTimer :=
      if t = .clear then none
      else if k.tracker = .clear then some Config.obstructionMs
      else k.obstructionTimer
    obstructedAt := if t = .clear then none else k.obstructedAt }

/-- The notice that a channel's obstruction has cleared, where the tracker is back at CLEAR with the flag
set (R60). -/
def clearedNotice (s : State) (c : Chan) (t : Tracker) : List Notice :=
  match (s.chan c).obstructedAt with
  | none => []
  | some at_ => if t = .clear then [.obstructedCleared c ((s.uptime - at_) / 1000)] else []

/-! ### Passages (R26, R44 to R47, R59, R68) -/

/-- An outward passage counted on an open call: an alighting, or an excess alighting where the aboard
figure is 0 (R26). -/
def countOutward (s : State) (b : Berth) : State :=
  let k := s.call b
  if 0 < k.aboard then s.setCall b { k with alighted := bump k.alighted }
  else s.setCall b { k with excess := bump k.excess }

/-- An inward passage with no live claim: an unpaid boarding (R47). -/
def unpaidBoarding (s : State) (c : Chan) (b : Berth) : State :=
  let k := s.call b
  let counted := s.setCall b { k with boarded := { k.boarded with unpaid := bump k.boarded.unpaid } }
  let told := counted.queue
    (.unpaidPassage c b k.vessel (counted.call b).boarded.unpaid (counted.aboard b))
  let tallied := told.setTallies c
    { (told.chan c).tallies with unpaid := bump (told.chan c).tallies.unpaid }
  tallied.markIfOver b .unpaid

/-- An inward passage consumes one seat of the head claim: the boarded count of its kind rises, and the
claim is removed with its last seat or else its window restarts (R44, R45). -/
def consumeSeat (s : State) (c : Chan) (b : Berth) (k : Claim) (ks : List Claim) : State :=
  let passed := { k with passed := k.passed + 1, window := s.windowOf c }
  let counted := (s.setCall b { s.call b with
    boarded := (s.call b).boarded.count k.kind }).modClaimAllot k Allotment.pass
  if passed.passed < k.granted then
    counted.setClaims c { s.claimsOf c with live := passed :: ks }
  else
    (counted.setClaims c { s.claimsOf c with live := promote (s.windowOf c) ks }).recordPassed passed

/-- A passage counts in one tally of its channel (R68). -/
def tallyPassage (s : State) (c : Chan) (d : Direction) (held : Bool) : State :=
  let t := (s.chan c).tallies
  s.setTallies c <|
    match d, held with
    | .inward, false => { t with inward := bump t.inward }
    | .outward, false => { t with outward := bump t.outward }
    | .inward, true => { t with egressIn := bump t.egressIn }
    | .outward, true => { t with egressOut := bump t.egressOut }

/-- A passage with no open call to count it against moves the stray tally (R59, R68). -/
def strayPassage (s : State) (c : Chan) : State :=
  s.setTallies c { (s.chan c).tallies with stray := bump (s.chan c).tallies.stray }

/-- The call table takes a passage of a channel of an open call (R26, R44, R47). -/
def countPassage (s : State) (c : Chan) (b : Berth) (d : Direction) : State :=
  match d with
  | .outward => s.countOutward b
  | .inward =>
    match (s.claimsOf c).live with
    | [] => s.unpaidBoarding c b
    | k :: ks => s.consumeSeat c b k ks

/-- A completed passage is tallied and routed (R59). -/
def routePassage (s : State) (c : Chan) (d : Direction) : State :=
  if (s.chan c).state = .egressHeld then s.tallyPassage c d true
  else
    let t := s.tallyPassage c d false
    match s.berthOf c with
    | none => t.strayPassage c
    | some b => if (s.call b).state.isOpen then t.countPassage c b d else t.strayPassage c

end State

end Sys2Proof.Machine
end

