-- ==== Sys2Proof/Machine/Arbiter.lean ====
section
/-! DEFINITION. The service arbiter: refusals at arrival and while pending, eligibility, ranking and
selection, and the taking of a presentation by the engine (chapter 5, R102). -/

namespace Sys2Proof.Machine

/-- A pending presentation as the arbiter ranks it (R93). -/
structure Candidate where
  requester : Requester
  level : Nat
  aged : Bool
  arrival : Nat
  deriving DecidableEq, Repr

/-- The effective level: 7 for an aged presentation, else its requester's level (R93). -/
def Candidate.effective (k : Candidate) : Nat := if k.aged then 7 else k.level

/-- Whether `y`, later in the fixed order, ranks before `x` (R93). -/
def Candidate.beats (y x : Candidate) : Bool :=
  if y.effective ≠ x.effective then x.effective < y.effective
  else if y.aged ≠ x.aged then y.aged
  else y.aged && y.arrival < x.arrival

/-- The first in the ranking of candidates that stand in the fixed order (R93). -/
def bestOf : List Candidate → Option Candidate
  | [] => none
  | k :: ks => some (ks.foldl (fun x y => if y.beats x then y else x) k)

namespace State

/-! ### Arrival (R88, R90) -/

/-- The verdict that refuses a channel's presentation at arrival, by the first test of Table 5-1 that is
met. -/
def arrivalRefusal (s : State) (c : Chan) : Option VerdictCode :=
  match (s.chan c).state with
  | .egressHeld => some .egress
  | .suspended => some .gangwayClosed
  | .outOfService => some .notServed
  | .closed | .exitFree => some .notBoarding
  | .released | .admitting =>
    if (s.chan c).service = .outOfService then some .notServed
    else if s.cfg.level.get c = 0 then some .notServed
    else if s.belowLastCall c then some .notBoarding
    else none

/-- A presentation handed over by a reader port arrives: it is refused at once, or takes the channel's
place in the pending set (R88). -/
def arrive (s : State) (c : Chan) (card : Card) : State :=
  match s.arrivalRefusal c with
  | some code => s.deliver c (plainVerdict card code)
  | none =>
    { s with arbiter := { s.arbiter with places := s.arbiter.places.set c (some ⟨card, s.uptime⟩) } }

/-- An accepted desk check arrives at the desk requester (R90). -/
def arriveDesk (s : State) (card : Card) (line : Nat) : State :=
  let held := { s with arbiter := { s.arbiter with
    desk := some ⟨card, line, s.uptime⟩
    deskOccupied := true } }
  if s.egress.active then held.refuseDesk .egress
  else if s.cfg.deskLevel = 0 then held.refuseDesk .notServed
  else held

/-! ### Refusals while pending (R97 to R99) -/

/-- Refuse the pending presentation of each channel of a berth that meets a test, in channel order. -/
def refuseOfBerth (s : State) (b : Berth) (code : VerdictCode) (p : Chan → Bool) : State :=
  Chan.all.foldl (fun t c => if t.berthOf c = some b && p c then t.refusePending c code else t) s

/-- What changed settings refuse at the arbiter (R99). -/
def refuseBySettings (s : State) (old : Settings) : State :=
  let refuseChannel (t : State) (c : Chan) : State :=
    let level := t.cfg.level.get c
    if level = 0 && old.level.get c ≠ 0 then t.refusePending c .notServed
    else if (level < old.level.get c || old.lastCallLevel < t.cfg.lastCallLevel) && t.belowLastCall c then
      t.refusePending c .notBoarding
    else t
  let swept := Chan.all.foldl refuseChannel s
  if swept.cfg.deskLevel = 0 && old.deskLevel ≠ 0 then swept.refuseDesk .notServed else swept

/-! ### Selection (R91 to R94) -/

/-- Whether a presentation that arrived at an uptime has been pending longer than AGING_LIMIT (R93). -/
def aged (s : State) (arrival : Nat) : Bool := s.cfg.agingLimit * 1000 < s.uptime - arrival

/-- A channel's pending presentation as a candidate, where it is eligible: its channel holds fewer than 3
claims (R91). -/
def channelCandidate (s : State) (c : Chan) : List Candidate :=
  match s.arbiter.places.get c with
  | none => []
  | some p =>
    if (s.claimsOf c).count < Config.claimsPerChannel then
      [⟨.channel c, s.cfg.level.get c, s.aged p.arrival, p.arrival⟩]
    else []

/-- The pending desk check as a candidate; it is always eligible (R91). -/
def deskCandidate (s : State) : List Candidate :=
  match s.arbiter.desk with
  | none => []
  | some p => [⟨.desk p.line, s.cfg.deskLevel, s.aged p.arrival, p.arrival⟩]

/-- The eligible pending presentations in the fixed order (R93). -/
def candidates (s : State) : List Candidate :=
  Chan.all.flatMap s.channelCandidate ++ s.deskCandidate

/-- The view of the tables and the clock that a take fixes (R102, R161). -/
def snapshot (s : State) : Snapshot :=
  ⟨s.tables.product, s.tables.active, s.tables.deny.entries, s.clock, s.tables.allot⟩

/-- The engine takes a card for a requester (R94, R102). -/
def takeWork (s : State) (q : Requester) (card : Card) : State :=
  { s with engine := { s.engine with work := some ⟨q, card, s.snapshot, false, .none⟩ } }

/-- Hand the presentation of a requester to the engine: its place becomes empty, and a channel's
presentations-taken tally rises (R94). -/
def handOver (s : State) (q : Requester) : State :=
  match q with
  | .channel c =>
    match s.arbiter.places.get c with
    | none => s
    | some p =>
      let emptied := { s with arbiter := { s.arbiter with places := s.arbiter.places.set c none } }
      (emptied.setTallies c
        { (s.chan c).tallies with taken := bump (s.chan c).tallies.taken }).takeWork q p.card
  | .desk _ =>
    match s.arbiter.desk with
    | none => s
    | some p => { s with arbiter := { s.arbiter with desk := none } }.takeWork q p.card

/-- The arbiter's selection: with the engine FREE and a pending presentation eligible, the first in the
ranking is handed to the engine (R92, R93). -/
def select (s : State) : State :=
  if s.engine.work.isSome then s
  else
    match bestOf s.candidates with
    | none => s
    | some k => s.handOver k.requester

/-! ### Withdrawal (R84, R95, R103, R157) -/

/-- The work of a channel in the engine takes the withdrawn mark (R103). -/
def markWithdrawn (s : State) (c : Chan) : State :=
  match s.engine.work with
  | none => s
  | some w =>
    if w.requester = .channel c then
      { s with engine := { s.engine with work := some { w with withdrawn := true } } }
    else s

/-- A slot holding a referral of a channel is resolved without a verdict (R157). -/
def dropReferral (s : State) (c : Chan) (i : Slot) : State :=
  match s.slot i with
  | none => s
  | some r => if r.channel = c then s.setSlot i none else s

/-- The outstanding presentation of a channel, if any, is withdrawn, and the block that holds it is told
at once (R84). -/
def withdrawPresentation (s : State) (c : Chan) : State :=
  match (s.port c).outstanding with
  | none => s
  | some _ =>
    let freed := s.setPort c { s.port c with outstanding := none }
    let emptied := { freed with arbiter := { freed.arbiter with
      places := freed.arbiter.places.set c none } }
    ((emptied.markWithdrawn c).dropReferral c .s0).dropReferral c .s1

/-- The awaited write of a channel, if any, ends with outcome unknown (R86). -/
def endWriteUnknown (s : State) (c : Chan) : State :=
  match (s.port c).awaited with
  | none => s
  | some w => (s.setPort c { s.port c with awaited := none }).writeUnknown c w.tag

end State

end Sys2Proof.Machine
end

