-- ==== Sys2Proof/Machine/Fare.lean ====
section
/-! DEFINITION. The fare unit: the seven stages of the stored-value fare, the fare of an account product,
and both with the clock reading UNSET (chapter 7). -/

namespace Sys2Proof.Machine

/-- The minute of the day of a reading (R122). -/
def minuteOf (t : ClockTime) : Nat := t.secs / 60

/-- Whether a band covers a minute: at or after its start and before its end (R122). -/
def Band.covers (k : Band) (minute : Nat) : Bool := k.start ≤ minute && minute < k.stop

/-- The band multiplier M: that of the band covering the minute of the take, and 100 outside every band
or with the reading UNSET (R122, R130). -/
def Tariff.multiplier (t : Tariff) (clock : Option ClockTime) : Nat :=
  match clock with
  | none => 100
  | some now =>
    match t.bands.find? fun k => k.covers (minuteOf now) with
    | some k => k.multiplier
    | none => 100

/-- The base fare of a line, 1..63 (Table 8-2). -/
def Tariff.baseFare (t : Tariff) (line : Nat) : Nat := t.base.getD (line - 1) 0

/-- The figures of a concession class (Table 8-2). -/
def Tariff.classOf (t : Tariff) (cls : Nat) : ClassFigures := t.classes.getD cls ⟨0, 0⟩

/-- Stage 1, the peak fare: P = (B × M + 50) div 100 (R123). -/
def peakFare (base multiplier : Nat) : Nat := (base * multiplier + 50) / 100

/-- Stage 2, the discounted fare: F1 = P − (P × D + 50) div 100 (R124). -/
def discounted (peak discount : Nat) : Nat := peak - (peak * discount + 50) / 100

/-- Stage 3, rounding down to the fare unit: F2 = F1 − (F1 mod U) (R125). -/
def roundedDown (fare unit : Nat) : Nat := fare - fare % unit

/-- Whether a card is eligible for the transfer credit (R126). -/
def transferEligible (window line : Nat) (clock : Option ClockTime) (last : Option LastBoarding) : Bool :=
  match clock, last with
  | some now, some l =>
    0 < window && !(l.day = 0 && l.secs = 0) && l.day = now.day && l.secs ≤ now.secs &&
    now.secs - l.secs ≤ window * 60 && l.line ≠ line
  | _, _ => false

/-- The transfer credit K: the fare of the last boarding and no more than T, for an eligible card (R126). -/
def transferCredit (t : Tariff) (line : Nat) (clock : Option ClockTime) (last : Option LastBoarding) : Nat :=
  match last with
  | some l => if transferEligible t.window line clock last then min l.fare t.creditCap else 0
  | none => 0

/-- S0, the total already paid today: the daily total where its day is today, else 0 (R127, R129, R133). -/
def paidToday (today : Nat) (v : Option ValuePart) : Nat :=
  match v with
  | some v => if v.day = today then v.daily else 0
  | none => 0

/-- Stage 5, the daily cap (R127); not made with the reading UNSET (R130). -/
def capped (fare cap : Nat) (clock : Option ClockTime) (v : Option ValuePart) : Nat :=
  match clock with
  | none => fare
  | some now => if cap = 0 then fare else min fare (cap - paidToday now.day v)

/-- What stages 1 to 5 compute: the peak fare P and the fare F4. -/
structure FareFigures where
  peak : Nat
  fare : Nat
  deriving DecidableEq, Repr

/-- Stages 1 to 5 for a card on a line, of a concession class, at the clock reading of the take (R121 to
R127, R130, R133). -/
def fareFigures (t : Tariff) (line cls : Nat) (clock : Option ClockTime) (card : Card) : FareFigures :=
  let k := t.classOf cls
  let p := peakFare (t.baseFare line) (t.multiplier clock)
  let f2 := roundedDown (discounted p k.discount) t.unit
  let f3 := f2 - transferCredit t line clock card.last
  ⟨p, capped f3 k.cap clock card.value⟩

/-- Stage 6, the balance test: the new balance, or none for LOW_BALANCE (R128). -/
def newBalance (balance : Int) (fare overdraft : Nat) : Option Int :=
  if fare = 0 then some balance
  else if -(overdraft : Int) ≤ balance - fare then some (balance - fare)
  else none

/-- Stage 7, the daily total with its day as written back; as presented with the reading UNSET (R129,
R130). -/
def newDaily (clock : Option ClockTime) (v : ValuePart) (fare : Nat) : Nat × Nat :=
  match clock with
  | none => (v.daily, v.day)
  | some now => (min 65535 (paidToday now.day (some v) + fare), now.day)

/-- The stored-value computation: the fare and the value part to write, or none for LOW_BALANCE (R131). -/
def storedValueFare (t : Tariff) (line cls : Nat) (clock : Option ClockTime) (card : Card)
    (v : ValuePart) : Option (Nat × ValuePart) :=
  let fare := (fareFigures t line cls clock card).fare
  match newBalance v.balance fare t.overdraft with
  | none => none
  | some balance =>
    let d := newDaily clock v fare
    some (fare, ⟨balance, d.1, d.2⟩)

end Sys2Proof.Machine
end

