-- ==== Sys2Proof/Machine/Engine.lean ====
section
/-! DEFINITION. The validation engine: the stages of a decision, the completion checks, the grant and
its write-back, referrals with their answers and fallbacks, and desk checks (chapters 6 and 9). -/

namespace Sys2Proof.Machine

/-! ### What a decision is made of -/

/-- The terms of an accept: the claim asked for and what the verdict and the write-back carry (R110, R112,
Table 9-1, Table 9-2). -/
structure Terms where
  code : VerdictCode
  kind : ClaimKind
  seats : Nat
  partialOk : Bool
  fare : Nat
  allot : Option CardId
  charge : Charge
  value : Option ValuePart
  rides : Option Nat
  /-- whether a write-back is carried; it always has a last-boarding part (R114) -/
  writes : Bool
  /-- a recovery or a re-release, which readmits the journey entry found at stage 4 -/
  reuse : Bool
  deriving DecidableEq, Repr

/-- What stages 1 to 8 decide for a card (Table 6-2). -/
inductive Decision where
  | refuse (code : VerdictCode)
  | deniedBlock
  | accept (t : Terms)
  | refer (cause : Cause)
  deriving DecidableEq, Repr

/-- What stage 4 finds (Table 6-4). -/
inductive Finding where
  | pass
  | mismatch
  | passback
  | reuse
  deriving DecidableEq, Repr

/-- The outcome of a case taken to its verdict: the state, the verdict code sent to the reader, and the
notices that stand after the call table's HEADROOM notice (R160). -/
structure Decided where
  state : State
  code : VerdictCode
  after : List Notice

/-- One seat, fare 0, with a write-back of the last-boarding part alone. -/
def Terms.plain (code : VerdictCode) (kind : ClaimKind) : Terms :=
  ⟨code, kind, 1, false, 0, none, .none, none, none, true, false⟩

/-- The terms of a recovery or a re-release (R108). -/
def Terms.reused : Terms := { Terms.plain .acceptFree .free with writes := false, reuse := true }

/-- The terms of an ALLOTMENT grant (R159). -/
def Terms.ofAllotment (a : Allotment) : Terms :=
  { Terms.plain .acceptFree .allotment with
    seats := min a.remaining a.block
    partialOk := true
    allot := some a.token }

/-! ### Stages 3 to 8 -/

/-- The product entry of a number (R136). -/
def findProduct (t : ProductTable) (number : Nat) : Option ProductEntry :=
  t.entries.find? fun e => e.number = number

/-- Whether a line set passes a line (R109). -/
def lineSetPasses (ls : LineSet) (line : Nat) : Bool :=
  match ls with
  | .all => within line 1 63
  | .lines ls => ls.contains line

/-- Stage 8 for a product entry, under a tariff (Table 6-5). DESIGN CHOICE (assumption 38): days are compared by
their numbers, so a pass whose end day is 65535 is not EXPIRED on the day 0 that follows it, where R149 calls the
pass of the old day EXPIRED and R110 asks for an end day before today. -/
def decideProduct (p : ProductEntry) (t : Tariff) (clock : Option ClockTime) (line : Nat)
    (card : Card) : Decision :=
  match p.kind with
  | .period =>
    match card.passEnd, clock with
    | none, _ => .refuse .badCard
    | some endDay, some now =>
      if endDay < now.day then .refuse .expired else .accept (.plain .accept .paid)
    | some _, none => .accept (.plain .accept .paid)
  | .bundle =>
    match card.rides with
    | none => .refuse .badCard
    | some 0 => .refuse .exhausted
    | some (n + 1) => .accept { Terms.plain .accept .paid with rides := some n, charge := .ride }
  | .storedValue =>
    match card.value with
    | none => .refuse .badCard
    | some v =>
      match storedValueFare t line p.cls clock card v with
      | none => .refuse .lowBalance
      | some (fare, written) => .accept { Terms.plain .accept .paid with
          fare := fare
          value := some written
          charge := if 0 < fare then .fare else .none }
  | .account =>
    let f := fareFigures t line p.cls clock card
    .refer (.account f.fare f.peak)
  | .staff => .accept (.plain .acceptFree .staff)

/-- The allotment path for a token's entry (R159). -/
def decideAllotment (a : Allotment) (clock : Option ClockTime) (line : Nat) : Decision :=
  if a.stateAt clock = .expired then .refuse .expired
  else if a.line ≠ 0 && a.line ≠ line then .refuse .wrongLine
  else if a.remaining = 0 then .refer (.allotmentSpent a.total a.passed)
  else .accept (.ofAllotment a)

/-- An allotment entry as it applies to a presentation: its figures as they stand, and its line, block size
and expiry as the take found them (R159, R161; assumption 26). -/
def Snapshot.applied (k : Snapshot) (a : Allotment) : Allotment :=
  match k.allot.find? fun b => b.token = a.token with
  | none => a
  | some b => { a with line := b.line, block := b.block, expiry := b.expiry }

/-- Stages 6 to 8 (R109, R110). -/
def decideByProduct (table : ProductTable) (t : Tariff) (clock : Option ClockTime) (line : Nat)
    (card : Card) : Decision :=
  match findProduct table card.product with
  | none => .refer .unknownProduct
  | some p =>
    if lineSetPasses p.lines line then decideProduct p t clock line card else .refuse .wrongLine

namespace State

/-- Stage 4: what the newest journey entry of a card gives on a line (Table 6-4). -/
def journeyFinding (s : State) (card : Card) (line : Nat) : Finding :=
  match s.newestEntry card.id with
  | none => .pass
  | some e =>
    let age := s.uptime - e.uptime
    match e.outcome with
    | .uncertain =>
      if age < s.cfg.rereleaseGrace * 1000 then
        match card.last with
        | some l => if l.pier = s.cfg.pierNumber && l.tag = e.tag then .reuse else .mismatch
        | none => .mismatch
      else .pass
    | .paidNotPassed =>
      if age < s.cfg.rereleaseGrace * 1000 && e.line = line then .reuse else .pass
    | .admitted | .boarded => if age < s.cfg.passbackInterval * 1000 then .passback else .pass
    | .resolved => .pass

/-- Stages 1 to 8 for a card on a line, and whether stage 4 found the recovery test not met (R105). DESIGN CHOICE
(assumption 39): the EXPIRED test of a token at a desk check reads the pier clock as it stands at the completion,
as R158 derives the state, where R116 decides a desk check against the clock reading of its take. -/
def decideCard (s : State) (card : Card) (snap : Snapshot) (line : Nat) : Decision × Bool :=
  if !card.dataOk then (.refuse .badCard, false)
  else if card.blocked then (.refuse .denied, false)
  else
    match snap.product, snap.tariff with
    | some table, some tariff =>
      match snap.deny.find? fun e => e.id = card.id with
      | some e =>
        match e.action with
        | .refuse => (.refuse .denied, false)
        | .block => (.deniedBlock, false)
      | none =>
        match s.allotOf card.id with
        | some a => (decideAllotment (snap.applied a) s.clock line, false)
        | none =>
          match s.journeyFinding card line with
          | .passback => (.refuse .passback, false)
          | .reuse => (.accept .reused, false)
          | .mismatch => (decideByProduct table tariff snap.clock line card, true)
          | .pass => (decideByProduct table tariff snap.clock line card, false)
    | _, _ => (.refuse .notReady, false)

/-- The newest journey entry of a card becomes RESOLVED (R108). -/
def resolveNewest (s : State) (id : CardId) : State :=
  s.setJourney (modifyLast (fun e => e.card = id) (fun e => { e with outcome := .resolved })
    s.engine.journey)

/-- The newest journey entry of a card becomes ADMITTED on the channel's call (R112). -/
def readmit (s : State) (c : Chan) (id : CardId) : State :=
  match s.berthOf c with
  | none => s
  | some b => s.setJourney (modifyLast (fun e => e.card = id)
      (fun e => { e with outcome := .admitted, berth := b, line := (s.call b).line }) s.engine.journey)

/-! ### Stages 9 and 10 (R111 to R115) -/

/-- Stage 9: the verdict that the channel and the call as they stand give, if they refuse (R111). -/
def completionRefusal (s : State) (c : Chan) : Option VerdictCode :=
  if (s.chan c).state = .egressHeld then some .egress
  else if (s.chan c).state = .suspended then some .gangwayClosed
  else if (s.chan c).service = .outOfService then some .notServed
  else
    match s.callStateOf c with
    | none => some .notBoarding
    | some k => if k.isBoarding then none else some .notBoarding

/-- Draw a write tag: the counter gives its value and advances, from 65535 to 1 (R115). -/
def drawTag (s : State) : State :=
  { s with engine := { s.engine with
      nextTag := if s.engine.nextTag = 65535 then 1 else s.engine.nextTag + 1 } }

/-- A channel's write note takes a tag and a charge (R115). -/
def setNote (s : State) (c : Chan) (tag : Nat) (charge : Charge) : State :=
  { s with engine := { s.engine with notes := s.engine.notes.set c (some ⟨tag, charge⟩) } }

/-- The last-boarding part a write-back carries (R114). -/
def lastBoarding (s : State) (c : Chan) (clock : Option ClockTime) (fare tag : Nat) : LastBoarding :=
  let t := clock.getD ⟨0, 0⟩
  ⟨t.day, t.secs, s.lineOf c, s.cfg.pierNumber, fare, tag⟩

/-- ALLOTMENT_SPENT where a grant left no seat remaining (R160). -/
def spentNotice (s : State) (c : Chan) (allot : Option CardId) : List Notice :=
  match allot with
  | none => []
  | some token =>
    match s.allotOf token with
    | none => []
    | some a =>
      if a.remaining = 0 then [.allotmentSpent a.token a.line a.total a.held a.passed c] else []

/-- A verdict with no charge and no write reaches the reader. -/
def refuseCase (s : State) (c : Chan) (card : Card) (code : VerdictCode) : Decided :=
  ⟨s.deliver c (plainVerdict card code), code, []⟩

/-- The request that terms make, under the tag of their write-back (R112). -/
def seatRequest (c : Chan) (card : Card) (t : Terms) (tag : Nat) : SeatRequest where
  channel := c
  kind := t.kind
  seats := t.seats
  card := if t.kind = .staff then none else some card.id
  fare := t.fare
  allot := t.allot
  tag := if t.writes then some tag else none
  partialOk := t.partialOk
  forced := false

/-- The verdict of granted terms (Table 6-6). -/
def grantedVerdict (s : State) (c : Chan) (card : Card) (clock : Option ClockTime) (t : Terms)
    (tag : Nat) : Verdict where
  code := t.code
  fare := t.fare
  balance := match t.value with
    | some v => some v.balance
    | none => card.balance
  writeBack :=
    if t.writes then
      let fare := if t.value.isSome then t.fare else 0
      some ⟨tag, t.value, t.rides, some (s.lastBoarding c clock fare tag), false⟩
    else none

/-- Stage 10: the tag drawn, the request made, and its answer turned into a verdict (R112). -/
def stageTen (s : State) (c : Chan) (card : Card) (clock : Option ClockTime) (t : Terms) : Decided :=
  let tag := s.engine.nextTag
  let drawn := if t.writes then s.drawTag.setNote c tag t.charge else s
  match drawn.requestSeats (seatRequest c card t tag) with
  | (held, .granted _) =>
    let noted := if t.reuse then held.readmit c card.id else held
    ⟨noted.deliver c (noted.grantedVerdict c card clock t tag), t.code, held.spentNotice c t.allot⟩
  | (held, .noHeadroom) => held.refuseCase c card .full
  | (held, .channelFull) => held.refuseCase c card .full
  | (held, .notBoarding) => held.refuseCase c card (if held.egress.active then .egress else .notBoarding)

/-- Stages 9 and 10 for a case that may board (R111, R112). -/
def acceptCase (s : State) (c : Chan) (card : Card) (clock : Option ClockTime) (t : Terms) : Decided :=
  match s.completionRefusal c with
  | some code => s.refuseCase c card code
  | none => s.stageTen c card clock t

/-! ### Referrals (R151 to R157) -/

/-- The fallback setting of a cause (R155). -/
def fallbackOf (s : State) : Cause → Fallback
  | .unknownProduct => s.cfg.fallbackUnknown
  | .account .. => s.cfg.fallbackAccount
  | .allotmentSpent .. => s.cfg.fallbackSpent

/-- The verdict of a fallback REFUSE (Table 9-2). -/
def fallbackRefusal : Cause → VerdictCode
  | .unknownProduct => .unknownProduct
  | .account .. => .refusedOnline
  | .allotmentSpent .. => .spent

/-- The terms of a fallback ACCEPT, with the block size of the case (Table 9-2). -/
def fallbackTerms (block : Nat) : Cause → Terms
  | .unknownProduct => .plain .acceptFree .free
  | .account .. => .plain .accept .account
  | .allotmentSpent .. => { Terms.plain .acceptFree .free with seats := block, partialOk := true }

/-- The block size of a case: that of its token's entry as it applies to the presentation, and 1 for a card
that is no token (R161). -/
def blockOf (s : State) (card : Card) (snap : Snapshot) : Nat :=
  match s.allotOf card.id with
  | none => 1
  | some a => (snap.applied a).block

/-- The fallback for a cause is applied to a case, with the clock as it stands (R155; assumption 9). -/
def fallback (s : State) (c : Chan) (card : Card) (cause : Cause) (block : Nat) : Decided :=
  match s.fallbackOf cause with
  | .refuse => s.refuseCase c card (fallbackRefusal cause)
  | .accept => s.acceptCase c card s.clock (fallbackTerms block cause)

/-- The slot a referral would be raised in: slot 0 before slot 1 (R151). -/
def freeSlot (s : State) : Option Slot :=
  if s.engine.slot0.isNone then some .s0
  else if s.engine.slot1.isNone then some .s1
  else none

/-- A referral is raised in a slot under the counter's id, which advances from 255 to 1 (R151). -/
def raise (s : State) (i : Slot) (c : Chan) (b : Berth) (card : Card) (cause : Cause) (block : Nat) :
    State :=
  let r : Referral := ⟨s.engine.nextReferral, c, b, card, cause, block, false, s.cfg.referralTimeout⟩
  let counted := { s with engine := { s.engine with
    nextReferral := if s.engine.nextReferral = 255 then 1 else s.engine.nextReferral + 1
    slot1Older := i = Slot.s0 && s.engine.slot1.isSome } }
  counted.setSlot i (some r)

/-- A held slot is resolved with a verdict that carries no write-back (R154, R157). -/
def resolveSlot (s : State) (i : Slot) (code : VerdictCode) : State :=
  match s.slot i with
  | none => s
  | some r => (s.setSlot i none).deliver r.channel (plainVerdict r.card code)

/-- A held slot is resolved by the fallback for its cause; the notices come back with it (R155). -/
def resolveByFallback (s : State) (i : Slot) : State × List Notice :=
  match s.slot i with
  | none => (s, [])
  | some r =>
    let d := (s.setSlot i none).fallback r.channel r.card r.cause r.block
    (d.state, d.after)

end State

/-- The terms of an accepted referral answer, with the block size of the case (Table 9-1). -/
def answerTerms (a : Option Allotment) (fare block : Nat) : Cause → Terms
  | .unknownProduct => .plain .acceptFree .free
  | .account .. =>
    { Terms.plain .accept .account with fare := fare, charge := if 0 < fare then .fare else .none }
  | .allotmentSpent .. =>
    match a with
    | some a => .ofAllotment { a with block := block }
    | none => { Terms.plain .acceptFree .allotment with partialOk := true }

/-- Whether the fields of an ACCEPT answer suit the cause (R153, test 3). -/
def answerFits (a : Option Allotment) (fare extra : Nat) : Cause → Bool
  | .unknownProduct => fare = 0 && extra = 0
  | .account .. => extra = 0
  | .allotmentSpent .. =>
    fare = 0 && 1 ≤ extra &&
    (match a with
     | some a => a.total + extra ≤ Config.maxAllotTotal
     | none => false)

namespace State

/-- An answer that resolves a slot (R154). An accepted ALLOTMENT_SPENT answer first extends the
allotment (R160; assumption 10). -/
def answerReferral (s : State) (i : Slot) (r : Referral) (v : AnswerVerdict) (fare extra : Nat) :
    Decided :=
  let freed := s.setSlot i none
  match v with
  | .refuse => freed.refuseCase r.channel r.card .refusedOnline
  | .undecided => freed.fallback r.channel r.card r.cause r.block
  | .accept =>
    let extended :=
      match r.cause with
      | .allotmentSpent .. => freed.modAllot r.card.id (Allotment.extend extra)
      | _ => freed
    extended.acceptCase r.channel r.card extended.clock
      (answerTerms (extended.allotOf r.card.id) fare r.block r.cause)

/-! ### Completion (R103 to R105, R116) -/

/-- A case leaves the stages for referral: raised in an empty slot, or decided at once by the fallback
where the host is SILENT or both slots are held (R151). -/
def referCase (s : State) (c : Chan) (card : Card) (cause : Cause) (block : Nat) : State × List Notice :=
  match s.freeSlot, s.berthOf c with
  | some i, some b =>
    if s.bus.silent then
      let d := s.fallback c card cause block
      (d.state, d.after)
    else (s.raise i c b card cause block, [])
  | _, _ =>
    let d := s.fallback c card cause block
    (d.state, d.after)

/-- A DENIED verdict whose deny entry asks for the block mark: a tag is drawn and the write-back sets the
mark and nothing else (R107). -/
def denyWithBlock (s : State) (c : Chan) (card : Card) : State :=
  let tag := s.engine.nextTag
  s.drawTag.deliver c ⟨.denied, 0, card.balance, some ⟨tag, none, none, none, true⟩⟩

/-- A channel's work is decided by the stages (Table 6-2). -/
def completeStages (s : State) (c : Chan) (w : Work) : State × List Notice :=
  let (d, mismatch) := s.decideCard w.card w.snap (s.lineOf c)
  let noted := if mismatch then s.resolveNewest w.card.id else s
  match d with
  | .refuse code => (noted.deliver c (plainVerdict w.card code), [])
  | .deniedBlock => (noted.denyWithBlock c w.card, [])
  | .accept t =>
    let r := noted.acceptCase c w.card w.snap.clock t
    (r.state, r.after)
  | .refer cause => noted.referCase c w.card cause (noted.blockOf w.card w.snap)

/-- The result of a desk check (R116, R159). DESIGN CHOICE (assumption 28): a recovery or a re-release ends at
stage 4, before the product is looked up, so its result carries no fare, balance, daily total or rides. -/
def deskResultOf (s : State) (w : Work) (line : Nat) : DeskResult :=
  let d := (s.decideCard w.card w.snap line).1
  { outcome :=
      match d with
      | .refuse code => .verdict code
      | .deniedBlock => .verdict .denied
      | .accept t => .verdict t.code
      | .refer cause => .wouldRefer cause.kind
    card := w.card.id
    product := some w.card.product
    line := line
    charge :=
      match d with
      | .accept t => t.value.map fun v => (t.fare, v.balance, v.daily)
      | _ => none
    ridesAfter :=
      match d with
      | .accept t => t.rides
      | _ => none
    journey := (s.newestEntry w.card.id).map fun e => (e, (s.uptime - e.uptime) / 1000)
    allotment :=
      match d with
      | .accept t =>
        t.allot.bind fun token =>
          (s.allotOf token).map fun a => (t.seats, a.remaining, a.held, a.passed)
      | _ => none }

/-- The desk check ends: DESK_RESULT is queued and the desk occupation cleared (R90, R116). -/
def completeDesk (s : State) (w : Work) (line : Nat) : State :=
  { s with arbiter := { s.arbiter with deskOccupied := false } }.queue (.deskResult (s.deskResultOf w line))

/-- The engine falls free of its work (R92). -/
def freeEngine (s : State) : State := { s with engine := { s.engine with work := none } }

/-- The completion of a work: discarded, ended by its mark, a desk result, or the stages (Table 6-2). The
notices that stand after HEADROOM come back with the state. -/
def completeWork (s : State) (w : Work) : State × List Notice :=
  match w.requester with
  | .desk line => (s.freeEngine.completeDesk w line, [])
  | .channel c =>
    if w.withdrawn then (s.freeEngine, [])
    else
      match w.mark with
      | .notBoarding => (s.freeEngine.deliver c (plainVerdict w.card .notBoarding), [])
      | .egress => (s.freeEngine.deliver c (plainVerdict w.card .egress), [])
      | .none => s.freeEngine.completeStages c w

end State

end Sys2Proof.Machine
end

