-- ==== Sys2Proof/Machine/CallTable.lean ====
section
/-! DEFINITION. The transitions of a call record that more than one command makes: entry to LAST_CALL,
entry to ENDED with all it ends, and entry to and leaving of egress (R16, R17, R165, R169). -/

namespace Sys2Proof.Machine

namespace State

/-- Entry to LAST_CALL: timestamp, last-call timer, CALL_STATE, and the arbiter's purge of the channels at
or below LAST_CALL_LEVEL (R16, R98). -/
def enterLastCall (s : State) (b : Berth) (cause : CallCause) : State :=
  let k := s.call b
  let entered := (s.setCall b { k with state := .lastCall, lastCallAt := s.stamp }).setTimers b
    ⟨none, some (s.cfg.lastCallLimit * 1000)⟩
  let told := entered.queueCallState b k.vessel k.state cause
  told.refuseOfBerth b .notBoarding fun c => told.cfg.level.get c ≤ told.cfg.lastCallLevel

/-- The verdict for the work that a call's end ends (R17). -/
def endVerdict : EndReason → VerdictCode
  | .egress => .egress
  | _ => .notBoarding

/-- The work of a channel of a berth takes the end mark (R104). -/
def markEnded (s : State) (b : Berth) (reason : EndReason) : State :=
  match s.engine.work with
  | none => s
  | some w =>
    match w.requester with
    | .desk _ => s
    | .channel c =>
      if s.berthOf c = some b then
        let mark := if reason = .egress then EndMark.egress else EndMark.notBoarding
        { s with engine := { s.engine with work := some { w with mark := mark } } }
      else s

/-- A slot holding a case of a berth is resolved with a verdict (R157). -/
def resolveSlotOfBerth (s : State) (b : Berth) (i : Slot) (code : VerdictCode) : State :=
  match s.slot i with
  | none => s
  | some r => if r.berth = b then s.resolveSlot i code else s

/-- The record enters ENDED: reason, timestamp, timers stopped, CALL_STATE (R17, steps 1 to 5). -/
def recordEnd (s : State) (b : Berth) (reason : EndReason) (cause : CallCause) : State :=
  let k := s.call b
  ((s.setCall b { k with state := .ended, endReason := reason, endedAt := s.stamp }).setTimers b
    .stopped).queueCallState b k.vessel k.state cause

/-- The claims of a berth's call end, channel 0 to channel 3 (R49). -/
def endCallClaims (s : State) (b : Berth) : State :=
  Chan.all.foldl (fun t c => t.endClaims c fun k => k.berth = b) s

/-- Entry to ENDED with all it ends: claims, pending presentations, the engine's work, referrals (R17). -/
def endCall (s : State) (b : Berth) (reason : EndReason) (cause : CallCause) : State :=
  let code := endVerdict reason
  let cleared := (s.recordEnd b reason cause).endCallClaims b
  let refused := (cleared.refuseOfBerth b code fun _ => true).markEnded b reason
  (refused.resolveSlotOfBerth b .s0 code).resolveSlotOfBerth b .s1 code

/-! ### Egress (R165, R169) -/

/-- What a channel contributes to EGRESS_ENTERED: its posture and egress tallies. -/
def enteredFigures (s : State) (c : Chan) : Option Posture × Nat × Nat :=
  (s.egress.posture.get c, (s.chan c).tallies.egressIn, (s.chan c).tallies.egressOut)

/-- What a channel contributes to EGRESS_LEFT: its latch and egress tallies. -/
def leftFigures (s : State) (c : Chan) : Option Latch × Nat × Nat :=
  (s.egress.latch.get c, (s.chan c).tallies.egressIn, (s.chan c).tallies.egressOut)

/-- The controller's part of entering egress (R165, step 1). -/
def startEgress (s : State) (cause : EgressCause) : State :=
  let entered : State := { s with egress :=
    { active := true
      byLine := cause = .line
      byCommand := cause = .command
      level := s.egress.level
      hold := some Config.holdMs
      pendingClear := false
      posture := .of fun c => some (s.cfg.posture.get c)
      latch := .same none } }
  entered.queue (.egressEntered cause (.of entered.enteredFigures))

/-- A call that is open ends by egress (R24). -/
def endByEgress (s : State) (b : Berth) : State :=
  if (s.call b).state.isOpen then s.endCall b .egress .egress else s

/-- Entry to egress but for the channels' part, which ends the event (R165, steps 1 to 4). -/
def enterEgress (s : State) (cause : EgressCause) : State :=
  let ended := ((s.startEgress cause).endByEgress .b0).endByEgress .b1
  ((ended.resolveSlot .s0 .egress).resolveSlot .s1 .egress).refuseDesk .egress

/-- A further cause of egress while it is active (R164). -/
def addCause (s : State) (cause : EgressCause) : State :=
  match cause with
  | .line => { s with egress := { s.egress with byLine := true } }
  | .command => { s with egress := { s.egress with byCommand := true } }

/-- The latch that a posture in force leaves (R166). -/
def latchOf : Option Posture → Option Latch
  | some .opened => some .opened
  | some .closed => some .closed
  | _ => none

/-- The end of egress but for the channels' part, which ends the event (R169, steps 1 to 3). -/
def leaveEgress (s : State) : State :=
  let left : State := { s with egress :=
    { active := false
      byLine := false
      byCommand := false
      level := s.egress.level
      hold := none
      pendingClear := false
      posture := .same none
      latch := .of fun c => latchOf (s.egress.posture.get c) } }
  left.queue (.egressLeft (.of left.leftFigures))

end State

end Sys2Proof.Machine
end

