-- ==== Sys2Proof/Machine/StartUp.lean ====
section
/-! DEFINITION. The start-up sequence: settings, straps, volatile state, restart mark, RESTARTED, start
window, egress where the evacuation line is active, and the channels' first derivation (R185). -/

namespace Sys2Proof.Machine

/-- The settings store after step 1 of a start-up: the image as it stands, or as a write cut short left
it, is loaded; an invalid image gives the defaults and sets the fault (R182, R184, R185). -/
def SettingsStore.restarted (k : SettingsStore) (found : Found) : SettingsStore :=
  let image :=
    match k.storing with
    | none => k.image
    | some _ => found.tornImage
  { working := (loadImage image).getD .default
    image := image
    writeCount := k.writeCount
    storing := none
    fault := (loadImage image).isNone }

/-- The address in use and its source: the straps, or the setting where they read 0 (R173). -/
def addressFrom (straps : BitVec 3) (setting : Nat) : Nat × AddressSource :=
  if straps = 0 then (setting, .setting) else (straps.toNat, .straps)

/-- A channel at start-up, with the levels found on its lines; its state and lines are derived after
(R58, R75). -/
def Channel.atStart (beamA beamB rampSafe : Bool) : Channel where
  state := .outOfService
  unlockIn := false
  unlockOut := false
  beamA := beamA
  beamB := beamB
  rampSafe := rampSafe
  tracker := .found beamA beamB
  obstructionTimer := if beamA || beamB then some Config.obstructionMs else none
  obstructedAt := none
  suspensionTimer := none
  limitReached := false
  service := .inService
  modeShown := none
  tallies := .zero

/-- A timer of a period in seconds, stopped where the period is 0 (R22). -/
def periodTimer (seconds : Nat) : Timer := if seconds = 0 then none else some (seconds * 1000)

namespace State

/-- A channel's first derivation: its state and lines, with no notice (R75). -/
def firstDerivation (s : State) (c : Chan) : State :=
  let st := s.deriveState c
  let l := s.lines c st
  s.setChan c { s.chan c with state := st, unlockIn := l.1, unlockOut := l.2 }

/-- Steps 1 to 6 of a start-up (R185). -/
def cleared (s : State) (cause : StartCause) (found : Found) : State :=
  let settings := s.settings.restarted found
  let address := addressFrom found.straps settings.working.busAddress
  { power := .running
    bus :=
      { receiver := .hunting false, address := address.1, source := address.2, reply := none, sent := none,
        restartAwaited := false, restartMark := some cause,
        supervision := some (Config.startWindowS * 1000), period := Config.startWindowS,
        silent := false }
    notices :=
      { queue := [(1, .restarted cause settings.fault address.1 address.2 settings.writeCount)],
        dropped := false, nextSeq := 2 }
    layout := s.layout
    uptime := 0
    clock := none
    clockPhase := 0
    calls := .same .zeroed
    callTimers := .same .stopped
    reportTimer := periodTimer settings.working.countReportPeriod
    claims := .same .none
    channels := .of fun c =>
      .atStart (found.beamA.get c) (found.beamB.get c) (found.rampSafe.get c)
    ports := .same .atStart
    arbiter := .atStart
    engine := .atStart
    tables := .atStart
    egress := .atStart found.evacuate
    settings := settings
    pending := s.pending }

/-- The start-up sequence (R185), with egress entered where the evacuation line is found active (R171) and
the channels' first derivation (R75). -/
def startUp (s : State) (cause : StartCause) (found : Found) : State :=
  let cleared := s.cleared cause found
  let entered := if found.evacuate then cleared.enterEgress .line else cleared
  (((entered.firstDerivation .c0).firstDerivation .c1).firstDerivation .c2).firstDerivation .c3

/-- The part holds itself inactive: every unlock line drops, and nothing waiting or going out is sent
(R185). -/
def goInactive (s : State) : State :=
  let dark (c : Chan) : Channel := { s.chan c with unlockIn := false, unlockOut := false }
  let quiet (c : Chan) : Port :=
    { s.port c with receiver := .hunting false, sending := none, waiting := [] }
  { s with
    power := .inactive
    bus := { s.bus with receiver := .hunting false, reply := none }
    channels := .of dark
    ports := .of quiet }

end State

end Sys2Proof.Machine
end

