-- ==== Sys2Proof/Machine/PierBus.lean ====
section
/-! DEFINITION. The pier bus port: how a request is taken and answered, and the commands of power, the
bus, polling, status, restart and the pier clock (chapters 8.5, 11 and 12.5). -/

namespace Sys2Proof.Machine

/-- One outcome of the host's interface over this model's types. -/
abbrev Result := Host.Outcome State Fault Refusal

/-- What an owning block makes of a request: the state, the reply code and the contents (R174). -/
structure Act where
  state : State
  code : ReplyCode
  body : ReplyBody

/-- A refusal that carries the code alone and has no other effect (R174). -/
def Act.refuse (s : State) (code : ReplyCode) : Act := ⟨s, code, .empty⟩

/-- A request taken with reply code OK. -/
def Act.ok (s : State) (body : ReplyBody) : Act := ⟨s, .ok, body⟩

namespace State

/-- An event has its effect while the supply is up; a part holding itself inactive takes none (R185). -/
def whenRunning (s : State) (f : State → State) : State :=
  match s.power with
  | .running => f s
  | .inactive => s

/-- A frame has ended, so that the receiver hunts again (R172). -/
def busHunting (s : State) : State := { s with bus := { s.bus with receiver := .hunting false } }

/-- A valid frame addressed to the part or broadcast restarts the supervision timer with the period in
force and clears SILENT (R172, R179). -/
def hearHost (s : State) : State :=
  { s with bus := { s.bus with
      receiver := .hunting false
      supervision := some (s.cfg.supervisionPeriod * 1000)
      period := s.cfg.supervisionPeriod
      silent := false } }

/-- A request is taken: the host is heard and an earlier reply still waiting is discarded unsent (R174). -/
def beginRequest (s : State) : State :=
  let heard := s.hearHost
  { heard with bus := { heard.bus with reply := none } }

/-- The reply waits to be sent; a broadcast gets none (R173, R174). -/
def answer (kind : Nat) (dest : Dest) (a : Act) : State :=
  match dest with
  | .broadcast => a.state
  | .part =>
    { a.state with bus := { a.state.bus with
        reply := some ⟨a.state.bus.address, kind + 0x80, a.code, a.body⟩ } }

/-- A request of a kind is taken, tested for its length, handed to its owner and answered (R174). -/
def request (s : State) (kind : MsgKind) (dest : Dest) (len : BodyLen) (act : State → Act) : State :=
  s.whenRunning fun s =>
    let taken := s.beginRequest
    answer kind.code dest <|
      match len with
      | .wrong => .refuse taken .badLength
      | .fits => act taken

end State

/-! ### Power and start-up (R185) -/

/-- POWER_ON: the start-up sequence with cause POWER_ON (R185). -/
def execPowerOn (found : Found) (s : State) : Result := .next (s.startUp .powerOn found)

/-- SUPPLY_DIP: the part holds itself inactive (R185). -/
def execSupplyDip (s : State) : Result := .next (s.whenRunning State.goInactive)

/-- SUPPLY_RECOVERED: after a dip, the start-up sequence with cause SUPPLY_DIP (R185). -/
def execSupplyRecovered (found : Found) (s : State) : Result :=
  .next (if s.power = .inactive then s.startUp .supplyDip found else s)

/-- COMMAND_START_UP: the start-up that an accepted RESTART awaits, with cause COMMAND, once no reply waits to
be sent: the RESTART's own, or that of the request that displaced it (R178, R185). -/
def execCommandStartUp (found : Found) (s : State) : Result :=
  .next (s.whenRunning fun s =>
    if s.bus.restartAwaited && s.bus.reply.isNone then s.startUp .command found else s)

/-! ### Polling (R152, R176) -/

/-- The octets of an item: kind, length, sequence number and contents (R176). DESIGN CHOICE (assumption 4):
every notice of one kind code counts one length, whatever it carries. -/
def NoticeLayout.itemOctets (k : NoticeLayout) (code : Nat) : Nat := 4 + k.contents.getD code 0

/-- Queued notices that a reply takes, oldest first, and those left: it stops at the items it may still
hold, and at the first notice that would take the body beyond 250 octets (R176). -/
def takeNotices (k : NoticeLayout) : Nat → Nat → List (Nat × Notice) → List PollItem × List (Nat × Notice)
  | _, _, [] => ([], [])
  | 0, _, q => ([], q)
  | items + 1, used, n :: q =>
    let size := used + k.itemOctets n.2.code
    if Config.maxBody < size then ([], n :: q)
    else
      let r := takeNotices k items size q
      (.notice n.1 n.2 :: r.1, r.2)

namespace State

/-- The REFERRAL item of a slot, where it holds one whose delivered mark is clear (R152). -/
def referralItem (s : State) (i : Slot) : List PollItem :=
  match s.slot i with
  | none => []
  | some r =>
    if r.delivered then []
    else [.referral ⟨r.id, r.channel, r.berth, (s.call r.berth).vessel, r.card.id, r.card.product, r.cause⟩]

/-- The held referrals to deliver, in order of raising (R152). -/
def referralItems (s : State) : List PollItem :=
  if s.engine.slot1Older then s.referralItem .s1 ++ s.referralItem .s0
  else s.referralItem .s0 ++ s.referralItem .s1

/-- The held referrals take their delivered marks (R152). -/
def markDelivered (s : State) : State :=
  { s with engine := { s.engine with
      slot0 := s.engine.slot0.map fun r => { r with delivered := true }
      slot1 := s.engine.slot1.map fun r => { r with delivered := true } } }

/-- What a POLL does (R176). -/
def actPoll (s : State) : Act :=
  let referrals := s.referralItems
  let used := s.layout.pollHead + referrals.length * s.layout.itemOctets referralCode
  let r := takeNotices s.layout (Config.pollItems - referrals.length) used s.notices.queue
  let marked := s.markDelivered
  .ok { marked with notices := { marked.notices with queue := r.2 } }
    (.polled s.notices.dropped r.2.length (referrals.length + r.1.length) (referrals ++ r.1))

/-- The version of the product table, 0 where it is absent (R135). -/
def productVersion (s : State) : Nat := (s.tables.product.map (·.version)).getD 0

/-- The version of the active tariff, 0 where it is absent (R135). -/
def tariffVersion (s : State) : Nat := (s.tables.active.map (·.version)).getD 0

/-- The pending tariff's version and effective time (R146). -/
def pendingFigures (s : State) : Option (Nat × ClockTime) :=
  s.tables.pendingTariff.map fun t => (t.version, t.effective)

/-- The number of held referral slots (R177). -/
def slotsHeld (s : State) : Nat :=
  (if s.engine.slot0.isSome then 1 else 0) + (if s.engine.slot1.isSome then 1 else 0)

/-- The STATUS figures (R177). The hold time left is in milliseconds: DESIGN CHOICE (assumption 32), since
the manual names no unit. -/
def statusReport (s : State) : StatusReport where
  restartMark := s.bus.restartMark
  dropped := s.notices.dropped
  silent := s.bus.silent
  address := s.bus.address
  source := s.bus.source
  clock := s.clock
  uptime := s.uptimeSecs
  egressActive := s.egress.active
  byLine := s.egress.byLine
  byCommand := s.egress.byCommand
  evacuate := s.egress.level
  holdLeft := s.egress.hold
  pendingClear := s.egress.pendingClear
  productVersion := s.productVersion
  tariffVersion := s.tariffVersion
  denyVersion := s.tables.deny.version
  pendingTariff := s.pendingFigures
  settingsFault := s.settings.fault
  storing := s.settings.storing.isSome
  writeCount := s.settings.writeCount
  notices := s.notices.queue.length
  referrals := s.slotsHeld

/-- What a STATUS_CLEAR does: both marks clear, and their earlier values are returned (R177). DESIGN CHOICE
(assumption 35): the restart mark goes with its cause, so a clear mark has none to report. -/
def actStatusClear (s : State) : Act :=
  .ok { s with
    bus := { s.bus with restartMark := none }
    notices := { s.notices with dropped := false } }
    (.marks s.bus.restartMark s.notices.dropped)

/-- What a RESTART does: refused STORING during a settings store, else a start-up is awaited (R178). -/
def actRestart (s : State) : Act :=
  if s.settings.storing.isSome then .refuse s .storing
  else .ok { s with bus := { s.bus with restartAwaited := true } } .empty

end State

/-- POLL (R176). -/
def execPoll (len : BodyLen) (s : State) : Result := .next (s.request .poll .part len State.actPoll)

/-- STATUS changes nothing and reports (R177). -/
def execStatus (len : BodyLen) (s : State) : Result :=
  .next (s.request .status .part len fun s => .ok s (.status s.statusReport))

/-- STATUS_CLEAR (R177). -/
def execStatusClear (len : BodyLen) (s : State) : Result :=
  .next (s.request .statusClear .part len State.actStatusClear)

/-- RESTART (R178). -/
def execRestart (len : BodyLen) (s : State) : Result :=
  .next (s.request .restart .part len State.actRestart)

/-- UNKNOWN_KIND: a request whose kind is no message kind is refused, test 1 of R174. -/
def execUnknownKind (kind : Nat) (s : State) : Result :=
  .next (s.whenRunning fun s => State.answer kind .part (.refuse s.beginRequest .unknownKind))

/-- BROADCAST_IGNORED: the frame restarts the supervision timer and is not executed (R172, R173). -/
def execBroadcastIgnored (_kind : Nat) (s : State) : Result := .next (s.whenRunning State.hearHost)

/-- BUS_FRAME_DISCARDED: a damaged frame or one for another address only ends; a valid frame to the
part's own address whose kind has 80h set still restarts the supervision timer (R172). -/
def execBusFrameDiscarded (why : BusDiscard) (s : State) : Result :=
  .next (s.whenRunning fun s =>
    match why with
    | .damaged => s.busHunting
    | .otherAddress => s.busHunting
    | .foreignReply => s.hearHost)

/-- BUS_REPLY_SENT: the reply waiting begins to go out (R174). -/
def execBusReplySent (s : State) : Result :=
  .next (s.whenRunning fun s =>
    match s.bus.reply with
    | none => s
    | some r => { s with bus := { s.bus with reply := none, sent := some r } })

/-! ### The pier clock and tariff activation (R147 to R150) -/

namespace State

/-- A tariff becomes active, and TARIFF_ACTIVE is queued (R147). -/
def activate (s : State) (t : Tariff) (cause : TariffCause) : State :=
  { s with tables := { s.tables with active := some t } }.queue
    (.tariffActive t.version t.effective (s.tables.active.map Tariff.version) cause)

/-- The pending tariff activates where the clock reads its effective time or later (R148). -/
def activatePending (s : State) (cause : TariffCause) : State :=
  match s.tables.pendingTariff, s.clock with
  | some t, some now =>
    if t.effective.le now then
      { s with tables := { s.tables with pendingTariff := none } }.activate t cause
    else s
  | _, _ => s

/-- What a CLOCK_SET does (R150). -/
def actClockSet (day secs : Nat) (s : State) : Act :=
  if Config.lastSecond < secs then .refuse s .badField
  else
    .ok ({ s with clock := some ⟨day, secs⟩, clockPhase := 0 }.activatePending .clockSet)
      (.clockWas s.clock)

end State

/-- The reading one second later (R149). -/
def nextSecond (t : ClockTime) : ClockTime :=
  if t.secs < Config.lastSecond then ⟨t.day, t.secs + 1⟩
  else if t.day < Config.lastDay then ⟨t.day + 1, 0⟩
  else ⟨0, 0⟩

/-- CLOCK_SET (R150). -/
def execClockSet (dest : Dest) (len : BodyLen) (day secs : Nat) (s : State) : Result :=
  .next (s.request .clockSet dest len (State.actClockSet day secs))

/-- CLOCK_SECOND: while SET the clock advances by one second, and a pending tariff may activate (R148,
R149). -/
def execClockSecond (s : State) : Result :=
  .next (s.whenRunning fun s =>
    match s.clock with
    | none => s
    | some t => { s with clock := some (nextSecond t) }.activatePending .clock)

end Sys2Proof.Machine
end

