-- ==== Sys2Proof/Machine/CallMessages.lean ====
section
/-! DEFINITION. The call messages, ABOARD_ADJUST, and the timers of the call table (chapter 1, R29,
R30). -/

namespace Sys2Proof.Machine

namespace State

/-- The call record of a berth with its derived figures (R13, R14). -/
def callReport (s : State) (b : Berth) : CallReport :=
  ⟨b, s.call b, s.held b, s.aboard b, s.headroom b⟩

/-- The tests of a state message, in order: berth and vessel number, the record's state, the record's own
vessel number (R8). -/
def stateMessage (s : State) (berth vessel : Nat) (accepts : CallState → Bool) (act : Berth → Act) : Act :=
  match Berth.ofNum? berth with
  | none => .refuse s .badField
  | some b =>
    if vessel = 0 then .refuse s .badField
    else if !accepts (s.call b).state then .refuse s .wrongState
    else if (s.call b).vessel ≠ vessel then .refuse s .wrongState
    else act b

/-- OK with the berth and the state entered (R8). -/
def enteredReply (s : State) (b : Berth) : Act := .ok s (.entered b (s.call b).state)

/-- The record a CALL_OPEN gives a berth (R7). -/
def openedCall (s : State) (vessel line capacity declared dwell : Nat) : Call :=
  { Call.zeroed with
    state := .alongside
    vessel := vessel
    line := line
    capacity := capacity
    declared := declared
    overCapacity := capacity < declared
    dwellLimit := dwell
    opened := s.stamp }

/-- What a CALL_OPEN does (R7). -/
def actCallOpen (berth vessel line capacity declared dwell : Nat) (s : State) : Act :=
  match Berth.ofNum? berth with
  | none => .refuse s .badField
  | some b =>
    if !(within vessel 1 65535 && within line 1 63 && within capacity 1 999 && declared ≤ 999 &&
        within dwell 30 900) then .refuse s .badField
    else if s.egress.active then .refuse s .wrongState
    else if (s.call b).state ≠ .vacant then .refuse s .wrongState
    else
      let opened := s.setCall b (s.openedCall vessel line capacity declared dwell)
      let told := opened.queueCallState b vessel .vacant .command
      let marked := told.queueIf (capacity < declared)
        (.overCapacity b vessel .opened capacity (told.aboard b) (told.held b))
      (settle s marked []).enteredReply b

/-- What an accepted BOARD_START does: BOARDING, and the dwell timer starts with the record's dwell limit
(R9, R15). -/
def startBoarding (s : State) (b : Berth) : State :=
  let k := s.call b
  let entered := (s.setCall b { k with state := .boarding, boardingStarted := s.stamp }).setTimers b
    ⟨some (k.dwellLimit * 1000), (s.timersOf b).lastCall⟩
  settle s (entered.queueCallState b k.vessel k.state .command) []

/-- What a BOARD_START does (R9). -/
def actBoardStart (berth vessel : Nat) (s : State) : Act :=
  s.stateMessage berth vessel (· = .alongside) fun b => (s.startBoarding b).enteredReply b

/-- What a LAST_CALL message does (R10). -/
def actLastCall (berth vessel : Nat) (s : State) : Act :=
  s.stateMessage berth vessel (· = .boarding) fun b =>
    (settle s (s.enterLastCall b .command) []).enteredReply b

/-- What a CAST_OFF or a CALL_CANCEL does, with its end reason (R11, R12). -/
def actEnd (reason : EndReason) (berth vessel : Nat) (s : State) : Act :=
  s.stateMessage berth vessel CallState.isOpen fun b =>
    (settle s (s.endCall b reason .command) []).enteredReply b

/-- What a CALL_QUERY does (R14). -/
def actCallQuery (berth : Nat) (s : State) : Act :=
  match Berth.ofNum? berth with
  | none => .refuse s .badField
  | some b => .ok s (.callRecord (s.callReport b))

/-- What an accepted CALL_COLLECT leaves: the zeroed record, and CALL_STATE with the vessel number of the
collected call (R13). -/
def collected (s : State) (b : Berth) : State :=
  settle s ((s.setCall b .zeroed).queueCallState b (s.call b).vessel (s.call b).state .command) []

/-- What a CALL_COLLECT does (R13). -/
def actCallCollect (berth vessel : Nat) (s : State) : Act :=
  s.stateMessage berth vessel (· = .ended) fun b =>
    .ok (s.collected b) (.callRecord (s.callReport b))

end State

/-- A record after ABOARD_ADJUST's arithmetic (R29). -/
def Call.adjust (k : Call) (delta : Int) : Call :=
  let declared := (min 999 (max 0 ((k.declared : Int) + delta))).toNat
  let limit := declared + k.boarded.sum
  { k with
    declared := declared
    alighted := min k.alighted limit
    excess := if limit < k.alighted then min (k.excess + (k.alighted - limit)) Config.countMax else k.excess }

namespace State

/-- What an accepted ABOARD_ADJUST leaves: the arithmetic, then the mark where the delta was above 0 (R29,
R30). -/
def adjusted (s : State) (b : Berth) (delta : Int) : State :=
  let changed := s.setCall b ((s.call b).adjust delta)
  settle s (if 0 < delta then changed.markIfOver b .adjust else changed) []

/-- What an ABOARD_ADJUST does (R29, R30). -/
def actAboardAdjust (berth vessel : Nat) (delta : Int) (s : State) : Act :=
  if delta < -999 ∨ 999 < delta then .refuse s .badField
  else
    s.stateMessage berth vessel CallState.isOpen fun b =>
      let t := s.adjusted b delta
      .ok t (.adjusted b (t.call b).declared (t.call b).alighted (t.call b).excess (t.aboard b) (t.held b)
        (t.headroom b) (t.call b).overCapacity)

/-- The COUNT_REPORT of a record (R22). -/
def countReport (s : State) (b : Berth) : Notice :=
  let k := s.call b
  .countReport b k.vessel k.state k.boarded k.alighted k.excess k.declared (s.aboard b) (s.held b)
    (s.headroom b) k.overCapacity

/-- COUNT_REPORT is queued for a record that is open (R22). -/
def queueReport (s : State) (b : Berth) : State := s.queueIf (s.call b).state.isOpen (s.countReport b)

end State

/-- CALL_OPEN (R7). -/
def execCallOpen (len : BodyLen) (berth vessel line capacity declared dwell : Nat) (s : State) : Result :=
  .next (s.request .callOpen .part len (State.actCallOpen berth vessel line capacity declared dwell))

/-- BOARD_START (R9). -/
def execBoardStart (len : BodyLen) (berth vessel : Nat) (s : State) : Result :=
  .next (s.request .boardStart .part len (State.actBoardStart berth vessel))

/-- The LAST_CALL message (R10). -/
def execLastCall (len : BodyLen) (berth vessel : Nat) (s : State) : Result :=
  .next (s.request .lastCall .part len (State.actLastCall berth vessel))

/-- CAST_OFF (R11). -/
def execCastOff (len : BodyLen) (berth vessel : Nat) (s : State) : Result :=
  .next (s.request .castOff .part len (State.actEnd .castOff berth vessel))

/-- CALL_CANCEL (R12). -/
def execCallCancel (len : BodyLen) (berth vessel : Nat) (s : State) : Result :=
  .next (s.request .callCancel .part len (State.actEnd .cancelled berth vessel))

/-- CALL_QUERY (R14). -/
def execCallQuery (len : BodyLen) (berth : Nat) (s : State) : Result :=
  .next (s.request .callQuery .part len (State.actCallQuery berth))

/-- CALL_COLLECT (R13). -/
def execCallCollect (len : BodyLen) (berth vessel : Nat) (s : State) : Result :=
  .next (s.request .callCollect .part len (State.actCallCollect berth vessel))

/-- ABOARD_ADJUST (R29, R30). -/
def execAboardAdjust (len : BodyLen) (berth vessel : Nat) (delta : Int) (s : State) : Result :=
  .next (s.request .aboardAdjust .part len (State.actAboardAdjust berth vessel delta))

/-- The dwell timer of a record runs out: BOARDING goes to LAST_CALL with cause TIMED (R15). -/
def execDwellTimerExpiry (b : Berth) (s : State) : Result :=
  .next (s.whenRunning fun s =>
    if ranOut (s.timersOf b).dwell && (s.call b).state = .boarding then
      State.settle s (s.enterLastCall b .timed) []
    else s)

/-- The last-call timer of a record runs out: LAST_CALL goes to ENDED with reason TIMED (R16). -/
def execLastCallTimerExpiry (b : Berth) (s : State) : Result :=
  .next (s.whenRunning fun s =>
    if ranOut (s.timersOf b).lastCall && (s.call b).state = .lastCall then
      State.settle s (s.endCall b .timed .timed) []
    else s)

/-- The report timer runs out: it stops where the setting is 0; else COUNT_REPORT is queued for each open
call, berth 0 before berth 1, and the timer restarts (R22). -/
def execReportTimerExpiry (s : State) : Result :=
  .next (s.whenRunning fun s =>
    if !ranOut s.reportTimer then s
    else if s.cfg.countReportPeriod = 0 then { s with reportTimer := none }
    else { (s.queueReport .b0).queueReport .b1 with reportTimer := periodTimer s.cfg.countReportPeriod })

end Sys2Proof.Machine
end

