-- ==== Sys2Proof/Machine/GateMessages.lean ====
section
/-! DEFINITION. The channel and egress messages, the field lines, and the timers of the gates (chapters 3
and 10, R50, R51). -/

namespace Sys2Proof.Machine

namespace State

/-! ### CHANNEL_QUERY (R67) -/

/-- The claims of a channel as reported: live claims in queue order, the head's window alone shown, then
provisional claims (R67, Table 2-3). -/
def claimReports (s : State) (c : Chan) : List ClaimReport :=
  ((s.claimsOf c).live.map fun k => ⟨true, k⟩) ++ (s.claimsOf c).provisional.map fun k => ⟨false, k⟩

/-- The posture reported where EGRESS_HELD: the one in force, or the latched one (R67). -/
def heldPosture (s : State) (c : Chan) : Option (Posture × Bool) :=
  if (s.chan c).state ≠ .egressHeld then none
  else
    match s.egress.posture.get c, s.egress.latch.get c with
    | some p, _ => some (p, false)
    | none, some .opened => some (.opened, true)
    | none, some .closed => some (.closed, true)
    | none, none => none

/-- The CHANNEL_QUERY figures (R67). -/
def channelReport (s : State) (c : Chan) : ChannelReport where
  channel := c
  berth := s.berthOf c
  level := s.cfg.level.get c
  state := (s.chan c).state
  unlockIn := (s.chan c).unlockIn
  unlockOut := (s.chan c).unlockOut
  service := (s.chan c).service
  line := (s.port c).line
  beamA := (s.chan c).beamA
  beamB := (s.chan c).beamB
  rampSafe := (s.chan c).rampSafe
  tracker := (s.chan c).tracker
  obstructed := (s.chan c).obstructedAt.isSome
  suspensionLeft := (s.chan c).suspensionTimer.map (· / 1000)
  limitReached := (s.chan c).limitReached
  posture := s.heldPosture c
  modeShown := (s.chan c).modeShown
  claims := s.claimReports c
  tallies := (s.chan c).tallies

/-- What a CHANNEL_QUERY does (R67). -/
def actChannelQuery (channel : Nat) (s : State) : Act :=
  match Chan.ofNum? channel with
  | none => .refuse s .badField
  | some c => .ok s (.channel (s.channelReport c))

/-! ### CHANNEL_SERVICE (R65, R96) -/

/-- A channel's service flag takes a value; OUT refuses its pending presentation (R65, R96). -/
def setService (s : State) (c : Chan) (flag : ServiceFlag) : State :=
  if (s.chan c).service = flag then s
  else
    let set := s.setChan c { s.chan c with service := flag }
    let told := if flag = .outOfService then set.refusePending c .notServed else set
    settle s told []

/-- What a CHANNEL_SERVICE does (R65). -/
def actChannelService (channel : Nat) (value : Option ServiceFlag) (s : State) : Act :=
  match Chan.ofNum? channel, value with
  | some c, some flag =>
    let t := s.setService c flag
    .ok t (.service c (t.chan c).service (t.chan c).state)
  | _, _ => .refuse s .badField

/-! ### CHANNEL_RELEASE (R50, R51) -/

/-- The request that a staff release makes (R51). -/
def staffRequest (c : Chan) (force : Bool) : SeatRequest where
  channel := c
  kind := .staff
  seats := 1
  card := none
  fare := 0
  allot := none
  tag := none
  partialOk := false
  forced := force

/-- The reply code that refuses a release, by tests 2 and 3 of R50; `b` is the channel's berth. -/
def releaseRefusal (s : State) (c : Chan) (b : Berth) (force : Bool) : Option ReplyCode :=
  if s.egress.active then some .wrongState
  else if !(s.call b).state.isBoarding then some .wrongState
  else if (s.chan c).state = .suspended || (s.chan c).state = .egressHeld then some .wrongState
  else if Config.claimsPerChannel ≤ (s.claimsOf c).count then some .wrongState
  else if !force && s.headroom b = 0 then some .noRoom
  else none

/-- A staff release that passed its tests: the seat is granted and LIVE at once, and a forced grant may set
the over-capacity mark (R51). -/
def releaseSeat (s : State) (c : Chan) (b : Berth) (force : Bool) : State :=
  let held := (s.requestSeats (staffRequest c force)).1
  settle s (if force then held.markIfOver b .staff else held) []

/-- What a CHANNEL_RELEASE does (R50, R51). -/
def actChannelRelease (channel : Nat) (force : Option Bool) (s : State) : Act :=
  match Chan.ofNum? channel, force with
  | some c, some force =>
    match s.berthOf c with
    | none => .refuse s .wrongState
    | some b =>
      match s.releaseRefusal c b force with
      | some code => .refuse s code
      | none =>
        let t := s.releaseSeat c b force
        .ok t (.released c b (t.headroom b) (s.claimsOf c).live.length (t.call b).overCapacity)
  | _, _ => .refuse s .badField

/-! ### Egress (R164, R167, R170) -/

/-- The latch of a channel is released, if it has one (R170). -/
def unlatch (s : State) (c : Chan) : State :=
  { s with egress := { s.egress with latch := s.egress.latch.set c none } }

/-- Whether a channel was latched, and the state it has after a restore (R170). -/
def restoredFigures (before s : State) (c : Chan) : Chan × Bool × ChannelState :=
  (c, (before.egress.latch.get c).isSome, (s.chan c).state)

/-- What a CHANNEL_RESTORE does (R170). -/
def actChannelRestore (target : RestoreTarget) (s : State) : Act :=
  match target with
  | .one channel =>
    match Chan.ofNum? channel with
    | none => .refuse s .badField
    | some c =>
      if s.egress.active then .refuse s .wrongState
      else
        let t := if (s.egress.latch.get c).isSome then settle s (s.unlatch c) [] else s
        .ok t (.restored [restoredFigures s t c])
  | .all =>
    if s.egress.active then .refuse s .wrongState
    else
      let t := settle s (Chan.all.foldl unlatch s) []
      .ok t (.restored (Chan.all.map (restoredFigures s t)))

/-- What an EGRESS_ENTER does (R164). -/
def actEgressEnter (s : State) : Act :=
  if s.egress.active then .ok (s.addCause .command) (.alreadyActive true)
  else .ok (settle s (s.enterEgress .command) []) (.alreadyActive false)

/-- What an EGRESS_CLEAR does (Table 10-2). The hold time left in the reply is in milliseconds: DESIGN CHOICE
(assumption 32), since the manual names no unit. -/
def actEgressClear (s : State) : Act :=
  if !s.egress.active then .refuse s .wrongState
  else if s.egress.level then .refuse s .wrongState
  else
    match s.egress.hold with
    | some left =>
      .ok { s with egress := { s.egress with pendingClear := true } } (.clearPending left)
    | none => .ok (settle s s.leaveEgress []) .clearEnded

/-! ### Field lines (R57 to R63, R164, R168) -/

/-- A filtered beam event that can occur in the tracker's state: the tracker moves, an obstruction may
start or clear, and a completed passage is routed (R57, R59, R60). -/
def beamMoves (s : State) (c : Chan) (beam : Beam) (broken : Bool) : State :=
  match (s.chan c).tracker.move beam broken with
  | none => s
  | some (t, passage) =>
    let cleared := s.clearedNotice c t
    let moved := s.takeBeam c beam broken t
    let routed :=
      match passage with
      | none => moved
      | some d => moved.routePassage c d
    (settle s routed cleared).select

/-- The filtered ramp line of a channel takes a level (R62, R63). -/
def takeRamp (s : State) (c : Chan) (safe : Bool) : State :=
  settle s (s.setChan c { s.chan c with rampSafe := safe }) []

/-- The filtered evacuation line takes a level. -/
def takeEvacuate (s : State) (level : Bool) : State :=
  { s with egress := { s.egress with level := level } }

/-- The evacuation line goes active: egress is entered, or LINE is added to the causes and a pending clear
is cancelled (R164, R168). -/
def evacuateOn (s : State) : State :=
  let t := s.takeEvacuate true
  if s.egress.active then
    let added := t.addCause .line
    { added with egress := { added.egress with pendingClear := false } }
  else settle s (t.enterEgress .line) []

/-! ### Timers of the gates (R43, R60, R64, R167) -/

/-- The head's pass window runs out: the head lapses (R43). The window of a SUSPENDED channel is paused
and does not run out (R41). -/
def windowRunsOut (s : State) (c : Chan) : State :=
  if ranOut (s.runningWindow c) then (settle s (s.lapseHead c) []).select else s

/-- The suspension timer runs out with the channel SUSPENDED: the limit-reached mark is set and every
claim of the channel ends (R48, R64). -/
def suspensionRunsOut (s : State) (c : Chan) : State :=
  if ranOut (s.chan c).suspensionTimer && (s.chan c).state = .suspended then
    let marked := s.setChan c { s.chan c with suspensionTimer := none, limitReached := true }
    (settle s (marked.endClaims c fun _ => true) []).select
  else s

/-- The obstruction timer runs out: the flag is set with the uptime, and OBSTRUCTED SET is queued (R60). -/
def obstructionRunsOut (s : State) (c : Chan) : State :=
  if !ranOut (s.chan c).obstructionTimer then s
  else
    (s.setChan c { s.chan c with obstructionTimer := none, obstructedAt := some s.uptime }).queue
      (.obstructedSet c (s.chan c).beamA (s.chan c).beamB)

/-- The minimum hold runs out: egress ends where a clear is pending (R167). -/
def holdRunsOut (s : State) : State :=
  if !ranOut s.egress.hold then s
  else if s.egress.pendingClear then settle s s.leaveEgress []
  else { s with egress := { s.egress with hold := none } }

end State

/-- CHANNEL_QUERY (R67). -/
def execChannelQuery (len : BodyLen) (channel : Nat) (s : State) : Result :=
  .next (s.request .channelQuery .part len (State.actChannelQuery channel))

/-- CHANNEL_SERVICE (R65). -/
def execChannelService (len : BodyLen) (channel : Nat) (value : Option ServiceFlag) (s : State) : Result :=
  .next (s.request .channelService .part len (State.actChannelService channel value))

/-- CHANNEL_RELEASE (R50, R51). -/
def execChannelRelease (len : BodyLen) (channel : Nat) (force : Option Bool) (s : State) : Result :=
  .next (s.request .channelRelease .part len (State.actChannelRelease channel force))

/-- CHANNEL_RESTORE (R170). -/
def execChannelRestore (len : BodyLen) (target : RestoreTarget) (s : State) : Result :=
  .next (s.request .channelRestore .part len (State.actChannelRestore target))

/-- EGRESS_ENTER (R164). -/
def execEgressEnter (dest : Dest) (len : BodyLen) (s : State) : Result :=
  .next (s.request .egressEnter dest len State.actEgressEnter)

/-- EGRESS_CLEAR (R167). -/
def execEgressClear (dest : Dest) (len : BodyLen) (s : State) : Result :=
  .next (s.request .egressClear dest len State.actEgressClear)

/-- BEAM_EVENT (R57). -/
def execBeamEvent (c : Chan) (beam : Beam) (broken : Bool) (s : State) : Result :=
  .next (s.whenRunning fun s => s.beamMoves c beam broken)

/-- RAMP_UNSAFE (R62). -/
def execRampUnsafe (c : Chan) (s : State) : Result := .next (s.whenRunning fun s => s.takeRamp c false)

/-- RAMP_SAFE (R63). -/
def execRampSafe (c : Chan) (s : State) : Result := .next (s.whenRunning fun s => s.takeRamp c true)

/-- EVACUATE_ACTIVE (R164, R168). -/
def execEvacuateActive (s : State) : Result := .next (s.whenRunning State.evacuateOn)

/-- EVACUATE_INACTIVE: only the level is recorded (R168). -/
def execEvacuateInactive (s : State) : Result :=
  .next (s.whenRunning fun s => s.takeEvacuate false)

/-- PASS_WINDOW_EXPIRY (R43). -/
def execPassWindowExpiry (c : Chan) (s : State) : Result :=
  .next (s.whenRunning fun s => s.windowRunsOut c)

/-- SUSPENSION_TIMER_EXPIRY (R64). -/
def execSuspensionTimerExpiry (c : Chan) (s : State) : Result :=
  .next (s.whenRunning fun s => s.suspensionRunsOut c)

/-- OBSTRUCTION_TIMER_EXPIRY (R60). -/
def execObstructionTimerExpiry (c : Chan) (s : State) : Result :=
  .next (s.whenRunning fun s => s.obstructionRunsOut c)

/-- MINIMUM_HOLD_EXPIRY (R167). -/
def execMinimumHoldExpiry (s : State) : Result := .next (s.whenRunning State.holdRunsOut)

end Sys2Proof.Machine
end

