-- ==== Sys2Proof/Machine/ReaderLines.lean ====
section
/-! DEFINITION. The reader ports: attachment and loss of a line, the records a reader sends, frames going
out, and the timers of a port (chapter 4, R66, R72). -/

namespace Sys2Proof.Machine

/-- Whether a record waiting to go out is a SETUP. -/
def ReaderRecord.isSetup : ReaderRecord → Bool
  | .setup .. => true
  | .verdict _ | .mode _ => false

namespace State

/-! ### Attachment (R79, R80) -/

/-- A SETUP is sent and the attach timer starts (R79). -/
def attachAnew (s : State) (c : Chan) : State :=
  let sent := s.sendSetup c
  sent.setPort c { sent.port c with attach := some Config.attachMs }

/-- A frame of the line has ended, so that the receiver hunts again (R76). -/
def readerHunting (s : State) (c : Chan) : State :=
  s.setPort c { s.port c with receiver := .hunting false }

/-- A valid frame taken while the line is DOWN moves it to ATTACHING (R79). -/
def startAttach (s : State) (c : Chan) : State :=
  (s.setPort c { s.port c with
    receiver := .hunting false
    line := .attaching
    inactivity := some Config.inactivityMs }).attachAnew c

/-- A valid frame restarts the inactivity timer in every line state and, while the line is DOWN, starts
attachment and is itself discarded (R76, R79). In ATTACHING and UP what the frame carries is then
taken. -/
def hearReader (s : State) (c : Chan) (take : State → State) : State :=
  match (s.port c).line with
  | .down => s.startAttach c
  | .attaching | .up =>
    take (s.setPort c { s.port c with
      receiver := .hunting false
      inactivity := some Config.inactivityMs })

/-- A record is taken while the line is UP, and discarded otherwise (Table 4-2). -/
def whenUp (s : State) (c : Chan) (take : State → State) : State :=
  match (s.port c).line with
  | .up => take s
  | .down | .attaching => s

/-- READY taken while ATTACHING: the line is UP and the attach timer stops; the channel is told (R79). DESIGN
CHOICE (assumption 30): a SETUP still waiting is kept, and goes out in its turn while the line is UP. -/
def lineUp (s : State) (c : Chan) : State :=
  settle s (s.setPort c { s.port c with line := .up, attach := none }) []

/-- The line of a channel leaves UP: VERDICT and MODE records still waiting are discarded, and the mode
shown is none (R72, R82). -/
def leaveUp (s : State) (c : Chan) (line : LineState) : State :=
  let left := s.setPort c { s.port c with
    line := line
    waiting := (s.port c).waiting.filter ReaderRecord.isSetup }
  left.setChan c { left.chan c with modeShown := none }

/-- READY taken while UP: the reader has restarted and is attached anew (R80). -/
def reattach (s : State) (c : Chan) : State :=
  let ended := (s.withdrawPresentation c).endWriteUnknown c
  ((settle s (ended.leaveUp c .attaching) []).attachAnew c).select

/-- READY (R79, R80). -/
def takeReady (s : State) (c : Chan) : State :=
  match (s.port c).line with
  | .attaching => s.lineUp c
  | .up => s.reattach c
  | .down => s

/-! ### Records of a reader that is UP (R83 to R86) -/

/-- A card read at the reader: an earlier presentation is withdrawn or an awaited write ends unknown, then
the new presentation is outstanding and arrives at the arbiter (R83). -/
def takePresent (s : State) (c : Chan) (card : Card) : State :=
  let ended := (s.withdrawPresentation c).endWriteUnknown c
  let held := ended.setPort c { ended.port c with outstanding := some card }
  (settle s (held.arrive c card) []).select

/-- A card taken away: the outstanding presentation is withdrawn where its card id is the one carried
(R84). -/
def takeWithdraw (s : State) (c : Chan) (id : CardId) : State :=
  match (s.port c).outstanding with
  | none => s
  | some card => if card.id = id then s.withdrawPresentation c else s

/-- The result of a card write ends the awaited write where the tag is equal (R85). -/
def takeWriteResult (s : State) (c : Chan) (tag : Nat) (ok : Bool) : State :=
  match (s.port c).awaited with
  | none => s
  | some w =>
    if w.tag ≠ tag then s
    else
      let ended := s.setPort c { s.port c with awaited := none }
      let told := if ok then ended.writeDone c tag else ended.writeFailed c tag
      (settle s told []).select

/-! ### Frames going out and the timers of a port (R78, R81, R82, R86) -/

/-- The frame going out ends, and the next record waiting begins to go out (R82). -/
def frameSent (s : State) (c : Chan) : State :=
  match (s.port c).sending with
  | none => s
  | some _ =>
    match (s.port c).waiting with
    | [] => s.setPort c { s.port c with sending := none }
    | r :: rs => (s.setPort c { s.port c with sending := none, waiting := rs }).startRecord c r

/-- The attach timer runs out: SETUP is sent again and the timer restarts (R79). -/
def attachRunsOut (s : State) (c : Chan) : State :=
  if ranOut (s.port c).attach && (s.port c).line = .attaching then s.attachAnew c else s

/-- The port after the line is lost: DOWN with both timers stopped and nothing left to send (R81, R82);
the mode shown is none where the line was UP (R72). -/
def lineDown (s : State) (c : Chan) : State :=
  let wasUp := decide ((s.port c).line = .up)
  let down := s.setPort c { s.port c with
    line := .down
    inactivity := none
    attach := none
    waiting := [] }
  if wasUp then down.setChan c { down.chan c with modeShown := none } else down

/-- The inactivity timer runs out: READER_LOST, the presentation withdrawn, the awaited write ended with
outcome unknown, the channel told (R81). -/
def inactivityRunsOut (s : State) (c : Chan) : State :=
  let p := s.port c
  if !ranOut p.inactivity || p.line = .down then s
  else
    let told := s.queue (.readerLost c p.line p.outstanding.isSome (p.awaited.map AwaitedWrite.tag))
    let ended := ((told.lineDown c).withdrawPresentation c).endWriteUnknown c
    (settle s ended []).select

/-- The write timer runs out: the awaited write ends with outcome unknown (R86). -/
def writeRunsOut (s : State) (c : Chan) : State :=
  match (s.port c).awaited with
  | none => s
  | some w => if w.left = 0 then (settle s (s.endWriteUnknown c) []).select else s

end State

/-- PRESENT; a body whose length does not agree with its presence flags is discarded (R77, R83). -/
def execPresent (c : Chan) (body : List Octet) (s : State) : Result :=
  .next (s.whenRunning fun s => s.hearReader c fun s => s.whenUp c fun s =>
    match Card.parse body with
    | none => s
    | some card => s.takePresent c card)

/-- WITHDRAW; a body that is not 8 octets long is discarded (R77, R84). -/
def execWithdraw (c : Chan) (body : List Octet) (s : State) : Result :=
  .next (s.whenRunning fun s => s.hearReader c fun s => s.whenUp c fun s =>
    match withdrawCard body with
    | none => s
    | some id => s.takeWithdraw c id)

/-- WRITE_RESULT; a malformed body is discarded (R77, R85). -/
def execWriteResult (c : Chan) (body : List Octet) (s : State) : Result :=
  .next (s.whenRunning fun s => s.hearReader c fun s => s.whenUp c fun s =>
    match writeResultOf body with
    | none => s
    | some (tag, ok) => s.takeWriteResult c tag ok)

/-- ALIVE restarts the inactivity timer, or starts attachment, and does nothing more (R76, R79). -/
def execAlive (c : Chan) (s : State) : Result :=
  .next (s.whenRunning fun s => s.hearReader c fun s => s)

/-- READY (R79, R80). -/
def execReady (c : Chan) (s : State) : Result :=
  .next (s.whenRunning fun s => s.hearReader c fun s => s.takeReady c)

/-- READER_FRAME_DISCARDED: a damaged frame only ends; a valid frame of a wrong kind or with a
malformed record restarts the inactivity timer or starts attachment (R76, R77, R79). -/
def execReaderFrameDiscarded (c : Chan) (why : ReaderDiscard) (s : State) : Result :=
  .next (s.whenRunning fun s =>
    match why with
    | .damaged => s.readerHunting c
    | .wrongKind => s.hearReader c fun s => s
    | .malformed => s.hearReader c fun s => s)

/-- READER_FRAME_SENT (R82). -/
def execReaderFrameSent (c : Chan) (s : State) : Result :=
  .next (s.whenRunning fun s => s.frameSent c)

/-- ATTACH_TIMER_EXPIRY (R79). -/
def execAttachTimerExpiry (c : Chan) (s : State) : Result :=
  .next (s.whenRunning fun s => s.attachRunsOut c)

/-- READER_INACTIVITY_EXPIRY (R81). -/
def execReaderInactivityExpiry (c : Chan) (s : State) : Result :=
  .next (s.whenRunning fun s => s.inactivityRunsOut c)

/-- WRITE_TIMER_EXPIRY (R86). -/
def execWriteTimerExpiry (c : Chan) (s : State) : Result :=
  .next (s.whenRunning fun s => s.writeRunsOut c)

end Sys2Proof.Machine
end

