-- ==== Sys2Proof/Machine/ReferralMessages.lean ====
section
/-! DEFINITION. Referral answers, desk checks, the completion of a validation, and the run-outs of the
referral timers and the supervision timer (R90, R105, R153, R156, R179). -/

namespace Sys2Proof.Machine

namespace State

/-! ### REFER_ANSWER (R153, R154) -/

/-- The slot that holds a referral id, with the referral (R153, test 2). -/
def slotWithId (s : State) (id : Nat) : Option (Slot × Referral) :=
  match s.engine.slot0, s.engine.slot1 with
  | some r, t =>
    if r.id = id then some (.s0, r)
    else
      match t with
      | some r => if r.id = id then some (.s1, r) else none
      | none => none
  | none, some r => if r.id = id then some (.s1, r) else none
  | none, none => none

/-- The fields of an answer lie in their ranges (R153, test 1). -/
def answerFieldsOk (id fare extra : Nat) : Bool := id ≠ 0 && fare ≤ Config.maxFare && extra ≤ 999

/-- Whether an answer is one whose fields must suit the cause, and do not (R153, test 3). -/
def answerMisfits (s : State) (r : Referral) (v : AnswerVerdict) (fare extra : Nat) : Bool :=
  v = .accept && !answerFits (s.allotOf r.card.id) fare extra r.cause

/-- What a REFER_ANSWER does. -/
def actReferAnswer (id : Nat) (verdict : Option AnswerVerdict) (fare extra : Nat) (s : State) : Act :=
  match verdict with
  | none => .refuse s .badField
  | some v =>
    if !answerFieldsOk id fare extra then .refuse s .badField
    else
      match s.slotWithId id with
      | none => .refuse s .late
      | some (i, r) =>
        if s.answerMisfits r v fare extra then .refuse s .badField
        else
          let d := s.answerReferral i r v fare extra
          .ok (settle s d.state d.after) (.answered id d.code)

/-! ### DESK_CHECK (R90) -/

/-- What a DESK_CHECK does. -/
def actDeskCheck (line : Nat) (card : List Octet) (s : State) : Act :=
  match Card.parse card with
  | none => .refuse s .badLength
  | some k =>
    if !within line 1 63 then .refuse s .badField
    else if s.arbiter.deskOccupied then .refuse s .busy
    else .ok ((settle s (s.arriveDesk k line) []).select) .empty

/-! ### Completion and run-outs (R105, R156, R179) -/

/-- The completion of the work in hand, as one event: the decision, the channels' part, and the next
selection (R92, R101, R105). -/
def complete (s : State) : State :=
  match s.engine.work with
  | none => s
  | some w =>
    let r := s.completeWork w
    (settle s r.1 r.2).select

/-- The referral timer of a held slot runs out: the fallback for its cause is applied (R156). -/
def referralRunsOut (s : State) (i : Slot) : State :=
  match s.slot i with
  | none => s
  | some held =>
    if held.left = 0 then
      let r := s.resolveByFallback i
      settle s r.1 r.2
    else s

/-- The supervision timer runs out with SILENT clear: SILENT is set, the timer stops, SUPERVISION_LAPSE is
queued, and each held slot is resolved by its fallback (R179). -/
def supervisionRunsOut (s : State) : State :=
  if !ranOut s.bus.supervision || s.bus.silent then s
  else
    let silenced := { s with bus := { s.bus with supervision := none, silent := true } }.queue
      (.supervisionLapse s.uptimeSecs s.bus.period)
    let first := silenced.resolveByFallback .s0
    let second := first.1.resolveByFallback .s1
    settle s second.1 (first.2 ++ second.2)

end State

/-- REFER_ANSWER (R153). -/
def execReferAnswer (len : BodyLen) (id : Nat) (verdict : Option AnswerVerdict) (fare extra : Nat)
    (s : State) : Result :=
  .next (s.request .referAnswer .part len (State.actReferAnswer id verdict fare extra))

/-- DESK_CHECK: its length is tested by the owning rule (R90). -/
def execDeskCheck (line : Nat) (card : List Octet) (s : State) : Result :=
  .next (s.request .deskCheck .part .fits (State.actDeskCheck line card))

/-- VALIDATION_COMPLETION: the engine completes the presentation it holds (R105). -/
def execValidationCompletion (s : State) : Result := .next (s.whenRunning State.complete)

/-- REFERRAL_TIMER_EXPIRY (R156). -/
def execReferralTimerExpiry (slot : Slot) (s : State) : Result :=
  .next (s.whenRunning fun s => s.referralRunsOut slot)

/-- SUPERVISION_TIMER_EXPIRY (R179). -/
def execSupervisionTimerExpiry (s : State) : Result :=
  .next (s.whenRunning State.supervisionRunsOut)

end Sys2Proof.Machine
end

