-- ==== Sys2Proof/Machine/SettingsMessages.lean ====
section
/-! DEFINITION. The settings messages and the end of a settings store (chapter 12). -/

namespace Sys2Proof.Machine

namespace State

/-! ### A change of the working settings (R22, R52, R71, R99) -/

/-- The report timer after a change of COUNT_REPORT_PERIOD: a change from 0 starts or restarts it, any
other leaves it (R22). -/
def reportTimerFor (s : State) (new : Settings) : Timer :=
  if s.cfg.countReportPeriod = 0 && 0 < new.countReportPeriod then periodTimer new.countReportPeriod
  else s.reportTimer

/-- New working settings take effect as part of the same event, at each block whose rule names a setting;
settings that do not change have no effect (R181, R183). DESIGN CHOICE (assumption 33): a DESK_RESULT of the
change comes before its CHANNEL_STATE notices. -/
def applySettings (s : State) (new : Settings) : State :=
  if new = s.cfg then s
  else
    let set := { s with
      settings := { s.settings with working := new }
      reportTimer := s.reportTimerFor new }
    settle s (set.refuseBySettings s.cfg) []

/-! ### SETTINGS_GET and SETTINGS_SET (R181) -/

/-- What a SETTINGS_GET does. -/
def actSettingsGet (number : Nat) (s : State) : Act :=
  if number = 0 then .ok s (.settings s.cfg.values)
  else
    match s.cfg.value? number with
    | none => .refuse s .badField
    | some v => .ok s (.settings [v])

/-- A berth's record is VACANT; NONE counts as VACANT (R181, test 3). -/
def berthVacant (s : State) : Option Berth → Bool
  | none => true
  | some b => (s.call b).state = .vacant

/-- Tests 3 and 4 of a SETTINGS_SET: CHANNEL_BERTH and PIER_NUMBER are barred while the records concerned
are not VACANT. -/
def settingLocked (s : State) (number : Nat) (new : Settings) : Bool :=
  match berthSettingChan number with
  | some c => !(s.berthVacant (s.berthOf c) && s.berthVacant (new.berthOf.get c))
  | none => number = 2 && !s.bothVacant

/-- What a SETTINGS_SET does. -/
def actSettingsSet (number : Nat) (value : SettingValue) (s : State) : Act :=
  if s.settings.storing.isSome then .refuse s .busy
  else
    match s.cfg.put number value, s.cfg.value? number with
    | some new, some before =>
      if s.settingLocked number new then .refuse s .locked
      else .ok (s.applySettings new) (.setting number before ((new.value? number).getD value))
    | _, _ => .refuse s .badField

/-! ### Storing, reloading and defaults (R182 to R184) -/

/-- What a SETTINGS_STORE does: the working settings are fixed as the image to be written and the count
rises (R182). -/
def actSettingsStore (s : State) : Act :=
  if s.settings.storing.isSome || s.bus.restartAwaited then .refuse s .busy
  else if Config.storeLimit ≤ s.settings.writeCount then .refuse s .worn
  else
    .ok { s with settings := { s.settings with
      storing := some (imageOf s.cfg)
      writeCount := s.settings.writeCount + 1 } } .empty

/-- The end of a store: the image reads back as it does, STORE_DONE is queued, and a store that ends OK
clears the settings fault (R182). -/
def endStore (s : State) (readBack : StoredImage) : State :=
  match s.settings.storing with
  | none => s
  | some target =>
    let ok := decide (readBack = target)
    { s with settings := { s.settings with
      image := readBack
      storing := none
      fault := if ok then false else s.settings.fault } }.queue (.storeDone ok s.settings.writeCount)

/-- Tests 1 and 2 of SETTINGS_RELOAD and SETTINGS_DEFAULT (R183). -/
def replaceRefusal (s : State) : Option ReplyCode :=
  if s.settings.storing.isSome then some .busy
  else if !s.bothVacant then some .locked
  else none

/-- The settings fault takes a value. -/
def setFault (s : State) (fault : Bool) : State :=
  { s with settings := { s.settings with fault := fault } }

/-- What a SETTINGS_RELOAD does: the image is loaded with its CRC check, as a start-up does (R183,
R184). -/
def actSettingsReload (s : State) : Act :=
  match s.replaceRefusal with
  | some code => .refuse s code
  | none =>
    match loadImage s.settings.image with
    | some new => .ok ((s.setFault false).applySettings new) (.reloaded true)
    | none => .ok ((s.setFault true).applySettings .default) (.reloaded false)

/-- What a SETTINGS_DEFAULT does (R183). -/
def actSettingsDefault (s : State) : Act :=
  match s.replaceRefusal with
  | some code => .refuse s code
  | none => .ok (s.applySettings .default) .empty

end State

/-- SETTINGS_GET (R181). -/
def execSettingsGet (len : BodyLen) (number : Nat) (s : State) : Result :=
  .next (s.request .settingsGet .part len (State.actSettingsGet number))

/-- SETTINGS_SET (R181). -/
def execSettingsSet (len : BodyLen) (number : Nat) (value : SettingValue) (s : State) : Result :=
  .next (s.request .settingsSet .part len (State.actSettingsSet number value))

/-- SETTINGS_STORE (R182). -/
def execSettingsStore (len : BodyLen) (s : State) : Result :=
  .next (s.request .settingsStore .part len State.actSettingsStore)

/-- STORE_WRITE_END: the write of an accepted store ends, and what the image memory reads back is
compared with the image fixed (R182). -/
def execStoreWriteEnd (readBack : StoredImage) (s : State) : Result :=
  .next (s.whenRunning fun s => s.endStore readBack)

/-- SETTINGS_RELOAD (R183). -/
def execSettingsReload (len : BodyLen) (s : State) : Result :=
  .next (s.request .settingsReload .part len State.actSettingsReload)

/-- SETTINGS_DEFAULT (R183). -/
def execSettingsDefault (len : BodyLen) (s : State) : Result :=
  .next (s.request .settingsDefault .part len State.actSettingsDefault)

end Sys2Proof.Machine
end

