-- ==== Sys2Proof/Machine/TableMessages.lean ====
section
/-! DEFINITION. Loading, editing and querying the tables, and the allotment messages (chapters 8 and
9.6). -/

namespace Sys2Proof.Machine

namespace State

/-- Replace the load area. -/
def setLoad (s : State) (l : Option Load) : State := { s with tables := { s.tables with load := l } }

/-! ### LOAD_BEGIN and LOAD_SEGMENT (R139 to R141) -/

/-- What a LOAD_BEGIN does (R139). -/
def actLoadBegin (kind : Option LoadKind) (version count : Nat) (crc : BitVec 16) (s : State) : Act :=
  match kind with
  | none => .refuse s .badField
  | some kind =>
    if version = 0 || !loadCountOk kind count then .refuse s .badField
    else
      let opened := s.setLoad (some ⟨kind, version, count, crc, 0, [], none, Config.loadIdleMs⟩)
      match s.tables.load with
      | none => .ok opened .empty
      | some l =>
        if l.kind = kind && l.version = version then .ok opened .empty else .refuse s .busy

end State

/-- Examine the entries of a segment in order and append them: the entries taken, and the position of the
first that fails a check of Table 8-3, if one does (R140). DESIGN CHOICE (assumption 29): the entry that fails
is not itself appended, so a broken load always fails test 1 of R142. -/
def examine : List LoadEntry → List LoadEntry → List LoadEntry × Option Nat
  | taken, [] => (taken, none)
  | taken, e :: es =>
    if entryOk taken.length (taken.getLast?.map LoadEntry.content) e.content then
      examine (taken ++ [e]) es
    else (taken, some taken.length)

/-- A load after a segment that passed its tests (R140). -/
def Load.takeSegment (l : Load) (entries : List LoadEntry) : Load :=
  match l.broken with
  | some _ => { l with next := l.next + 1, idle := Config.loadIdleMs }
  | none =>
    let r := examine l.entries entries
    { l with next := l.next + 1, entries := r.1, broken := r.2, idle := Config.loadIdleMs }

namespace State

/-- What a LOAD_SEGMENT does. `fits` tells whether the body makes a whole number of entries (R140). -/
def actLoadSegment (len : BodyLen) (index : Nat) (entries : List LoadEntry) (s : State) : Act :=
  match s.tables.load with
  | none => .refuse s .wrongState
  | some l =>
    if index + 1 = l.next then .ok (s.setLoad (some { l with idle := Config.loadIdleMs })) .empty
    else if segmentsOf l.count ≤ index || index ≠ l.next then .refuse s .badField
    else if len = .wrong || entries.length ≠ segmentEntries l.count index ||
        !entries.all (fun e => entryOfKind l.kind e.content) then .refuse s .badLength
    else
      let t := l.takeSegment entries
      match t.broken with
      | none => .ok (s.setLoad (some t)) .empty
      | some position => ⟨s.setLoad (some t), .badField, .brokenAt position⟩

/-! ### LOAD_COMMIT and LOAD_ABORT (R142, R143, R147) -/

/-- Whether a tariff committed now becomes active: an effective time "at once", or one the clock has
reached (Table of R147). -/
def activeAtOnce (s : State) (effective : ClockTime) : Bool :=
  if effective = ⟨0, 0⟩ then true
  else
    match s.clock with
    | none => false
    | some now => effective.le now

/-- A load that passed its tests replaces its table (R142). -/
def putTable (s : State) (l : Load) : State × Option TariffPlace :=
  let closed := s.setLoad none
  match l.kind with
  | .product =>
    ({ closed with tables := { closed.tables with
        product := some ⟨l.version, productEntries l.entries⟩ } }, none)
  | .deny =>
    ({ closed with tables := { closed.tables with
        deny := ⟨l.version, denyEntries l.entries, 0⟩ } }, none)
  | .tariff =>
    let t := tariffOf l.version l.entries
    if s.activeAtOnce t.effective then (closed.activate t .commit, some .active)
    else ({ closed with tables := { closed.tables with pendingTariff := some t } }, some .pending)

/-- The number of the first test of R142 that a load fails. -/
def commitTest (l : Load) : Option Nat :=
  if l.entries.length ≠ l.count then some 1
  else if l.broken.isSome then some 2
  else if crc16 (l.entries.flatMap LoadEntry.octets) ≠ l.crc then some 3
  else none

/-- What a LOAD_COMMIT does (R142). -/
def actLoadCommit (s : State) : Act :=
  match s.tables.load with
  | none => .refuse s .wrongState
  | some l =>
    match commitTest l with
    | some n => ⟨s.setLoad none, .badField, .failedTest n⟩
    | none =>
      let r := s.putTable l
      .ok r.1 (.committed l.kind l.version l.count r.2)

/-- What a LOAD_ABORT does (R143). -/
def actLoadAbort (s : State) : Act :=
  match s.tables.load with
  | none => .refuse s .wrongState
  | some _ => .ok (s.setLoad none) .empty

/-- The load's inactivity timer runs out: the load is discarded and LOAD_ABANDONED queued. A segment that
was taken first has restarted the timer, which then does not run out (R143). -/
def loadRunsOut (s : State) : State :=
  match s.tables.load with
  | none => s
  | some l =>
    if l.idle = 0 then (s.setLoad none).queue (.loadAbandoned l.kind l.version l.next l.broken.isSome) else s

end State

/-! ### DENY_EDIT (R145) -/

/-- Insert an entry in its place in card-id order (R138). -/
def insertDeny (e : DenyEntry) : List DenyEntry → List DenyEntry
  | [] => [e]
  | x :: xs => if e.id.toNat < x.id.toNat then e :: x :: xs else x :: insertDeny e xs

/-- ADD the ids in order: the list, the number added, and whether an ADD stopped for want of room
(R145). -/
def denyAdd : List DenyItem → List DenyEntry → Nat → List DenyEntry × Nat × Bool
  | [], list, n => (list, n, false)
  | i :: is, list, n =>
    if list.any (fun e => e.id = i.id) then denyAdd is list n
    else if Config.denySize ≤ list.length then (list, n, true)
    else
      match i.reason, i.action with
      | some reason, some action => denyAdd is (insertDeny ⟨i.id, reason, action⟩ list) (n + 1)
      | _, _ => denyAdd is list n

/-- REMOVE the ids in order: the list and the number removed (R145). -/
def denyRemove : List DenyItem → List DenyEntry → Nat → List DenyEntry × Nat
  | [], list, n => (list, n)
  | i :: is, list, n =>
    if list.any (fun e => e.id = i.id) then denyRemove is (list.filter fun e => e.id ≠ i.id) (n + 1)
    else denyRemove is list n

/-- An id of a DENY_EDIT that may be taken: not all zeros and, for an ADD, with a known reason and action
(R145). -/
def denyItemOk (op : DenyOp) (i : DenyItem) : Bool :=
  i.id ≠ 0 && (op = .remove || (i.reason.isSome && i.action.isSome))

namespace State

/-- The deny list after an edit that changed a number of entries (R145). -/
def setDeny (s : State) (list : List DenyEntry) (changed : Nat) : State :=
  let edits := if 0 < changed then bump s.tables.deny.edits else s.tables.deny.edits
  { s with tables := { s.tables with deny := ⟨s.tables.deny.version, list, edits⟩ } }

/-- What a DENY_EDIT does. `len` tells whether the body agrees with the id count (R145). -/
def actDenyEdit (len : BodyLen) (op : Option DenyOp) (items : List DenyItem) (s : State) : Act :=
  if len = .wrong then .refuse s .badLength
  else
    match op with
    | none => .refuse s .badField
    | some op =>
      if !within items.length 1 16 || !items.all (denyItemOk op) then .refuse s .badField
      else
        match op with
        | .add =>
          let r := denyAdd items s.tables.deny.entries 0
          let t := s.setDeny r.1 r.2.1
          if r.2.2 then ⟨t, .noRoom, .edited r.2.1⟩ else .ok t (.edited r.2.1)
        | .remove =>
          let r := denyRemove items s.tables.deny.entries 0
          .ok (s.setDeny r.1 r.2) (.edited r.2)

/-! ### TABLE_QUERY (R146) -/

/-- The SUMMARY figures (R146). -/
def tableSummary (s : State) : TableSummary where
  productVersion := s.productVersion
  productCount := ((s.tables.product.map ProductTable.entries).getD []).length
  tariffVersion := s.tariffVersion
  pendingTariff := s.pendingFigures
  denyVersion := s.tables.deny.version
  denyCount := s.tables.deny.entries.length
  denyEdits := s.tables.deny.edits
  allotCount := s.tables.allot.length
  load := s.tables.load.map fun l => ⟨l.kind, l.version, l.count, l.next, l.broken⟩

/-- What a TABLE_QUERY does (R146). -/
def actTableQuery (subject : Subject) (s : State) : Act :=
  match subject with
  | .unknown => .refuse s .badField
  | .summary => .ok s (.summary s.tableSummary)
  | .product number =>
    if !within number 1 255 then .refuse s .badField
    else .ok s (.product (s.tables.product.bind fun t => findProduct t number))
  | .deny id =>
    if id = 0 then .refuse s .badField
    else .ok s (.deny (s.tables.deny.entries.find? fun e => e.id = id))
  | .tariff .active => .ok s (.tariff s.tables.active)
  | .tariff .pending => .ok s (.tariff s.tables.pendingTariff)

/-! ### Allotment messages (R161, R162) -/

/-- An allotment entry as the replies to ALLOT_SET and ALLOT_REMOVE carry it, with its derived state (R161,
R162). -/
def allotReply (s : State) (a : Option Allotment) : ReplyBody := .allotment (a.map fun a => (a, a.stateAt s.clock))

/-- An allotment entry as the reply to ALLOT_QUERY carries it, with its derived state and the count of entries
in the table, or the mark "absent" (R162). -/
def allotQueryReply (s : State) (a : Option Allotment) : ReplyBody :=
  .allotmentAt (a.map fun a => (a, a.stateAt s.clock, s.tables.allot.length))

/-- Replace the allotment table. -/
def setAllot (s : State) (list : List Allotment) : State :=
  { s with tables := { s.tables with allot := list } }

end State

/-- The fields of an ALLOT_SET lie in their ranges (R161, Table 9-3). -/
def allotFieldsOk (token : CardId) (line total block : Nat) (expiry : Option ClockTime) : Bool :=
  token ≠ 0 && line ≤ 63 && within total 1 Config.maxAllotTotal && within block 1 9 &&
  (match expiry with
   | none => true
   | some t => t.day ≤ Config.lastDay && t.secs ≤ Config.lastSecond)

namespace State

/-- What an ALLOT_SET does (R161). -/
def actAllotSet (token : CardId) (line total block : Nat) (expiry : Option ClockTime) (s : State) : Act :=
  if !allotFieldsOk token line total block expiry then .refuse s .badField
  else
    match s.allotOf token with
    | none =>
      if Config.allotSize ≤ s.tables.allot.length then .refuse s .noRoom
      else
        let t := s.setAllot (s.tables.allot ++ [⟨token, line, total, total, 0, 0, block, expiry⟩])
        .ok t (t.allotReply (t.allotOf token))
    | some a =>
      if total < a.passed + a.held then .refuse s .badField
      else
        let t := s.modAllot token fun a => { a with
          line := line
          total := total
          remaining := total - a.passed - a.held
          block := block
          expiry := expiry }
        .ok t (t.allotReply (t.allotOf token))

/-- Whether a slot holds an ALLOTMENT_SPENT referral of a token (R162). -/
def slotHoldsToken (s : State) (token : CardId) (i : Slot) : Bool :=
  match s.slot i with
  | none => false
  | some r =>
    match r.cause with
    | .allotmentSpent .. => r.card.id = token
    | _ => false

/-- What an ALLOT_REMOVE does (R162). -/
def actAllotRemove (token : CardId) (s : State) : Act :=
  if token = 0 then .refuse s .badField
  else
    match s.allotOf token with
    | none => .ok s (s.allotReply none)
    | some a =>
      if 0 < a.held || s.slotHoldsToken token .s0 || s.slotHoldsToken token .s1 then .refuse s .wrongState
      else
        let t := s.setAllot (s.tables.allot.filter fun x => x.token ≠ token)
        .ok t (t.allotReply (some a))

/-- What an ALLOT_QUERY does (R162). -/
def actAllotQuery (key : AllotKey) (s : State) : Act :=
  match key with
  | .token id => if id = 0 then .refuse s .badField else .ok s (s.allotQueryReply (s.allotOf id))
  | .index n => if 15 < n then .refuse s .badField else .ok s (s.allotQueryReply s.tables.allot[n]?)

end State

/-- LOAD_BEGIN (R139). -/
def execLoadBegin (dest : Dest) (len : BodyLen) (kind : Option LoadKind) (version count : Nat)
    (crc : BitVec 16) (s : State) : Result :=
  .next (s.request .loadBegin dest len (State.actLoadBegin kind version count crc))

/-- LOAD_SEGMENT: its length is tested by the owning rule (R140). -/
def execLoadSegment (dest : Dest) (len : BodyLen) (index : Nat) (entries : List LoadEntry) (s : State) :
    Result :=
  .next (s.request .loadSegment dest .fits (State.actLoadSegment len index entries))

/-- LOAD_COMMIT (R142). -/
def execLoadCommit (dest : Dest) (len : BodyLen) (s : State) : Result :=
  .next (s.request .loadCommit dest len State.actLoadCommit)

/-- LOAD_ABORT (R143). -/
def execLoadAbort (dest : Dest) (len : BodyLen) (s : State) : Result :=
  .next (s.request .loadAbort dest len State.actLoadAbort)

/-- LOAD_INACTIVITY_EXPIRY (R143). -/
def execLoadInactivityExpiry (s : State) : Result := .next (s.whenRunning State.loadRunsOut)

/-- DENY_EDIT: its length is tested by the owning rule (R145). -/
def execDenyEdit (dest : Dest) (len : BodyLen) (op : Option DenyOp) (items : List DenyItem) (s : State) :
    Result :=
  .next (s.request .denyEdit dest .fits (State.actDenyEdit len op items))

/-- TABLE_QUERY (R146). -/
def execTableQuery (len : BodyLen) (subject : Subject) (s : State) : Result :=
  .next (s.request .tableQuery .part len (State.actTableQuery subject))

/-- ALLOT_SET (R161). -/
def execAllotSet (len : BodyLen) (token : CardId) (line total block : Nat) (expiry : Option ClockTime)
    (s : State) : Result :=
  .next (s.request .allotSet .part len (State.actAllotSet token line total block expiry))

/-- ALLOT_REMOVE (R162). -/
def execAllotRemove (len : BodyLen) (token : CardId) (s : State) : Result :=
  .next (s.request .allotRemove .part len (State.actAllotRemove token))

/-- ALLOT_QUERY (R162). -/
def execAllotQuery (len : BodyLen) (key : AllotKey) (s : State) : Result :=
  .next (s.request .allotQuery .part len (State.actAllotQuery key))

end Sys2Proof.Machine
end

