-- ==== Sys2Proof/Machine/Dispatch.lean ====
section
/-! DEFINITION. The meaning of each command: one arm per row of spec/opcode_table.json. -/

namespace Sys2Proof.Machine

def exec (i : Instr) (s : State) : Host.Outcome State Fault Refusal :=
  match i with
  | .powerOn found => Sys2Proof.Machine.execPowerOn found s
  | .supplyDip => Sys2Proof.Machine.execSupplyDip s
  | .supplyRecovered found => Sys2Proof.Machine.execSupplyRecovered found s
  | .commandStartUp found => Sys2Proof.Machine.execCommandStartUp found s
  | .poll len => Sys2Proof.Machine.execPoll len s
  | .status len => Sys2Proof.Machine.execStatus len s
  | .statusClear len => Sys2Proof.Machine.execStatusClear len s
  | .restart len => Sys2Proof.Machine.execRestart len s
  | .unknownKind kind => Sys2Proof.Machine.execUnknownKind kind s
  | .broadcastIgnored kind => Sys2Proof.Machine.execBroadcastIgnored kind s
  | .busFrameDiscarded why => Sys2Proof.Machine.execBusFrameDiscarded why s
  | .clockSet dest len day secs => Sys2Proof.Machine.execClockSet dest len day secs s
  | .clockSecond => Sys2Proof.Machine.execClockSecond s
  | .callOpen len berth vessel line capacity declared dwell => Sys2Proof.Machine.execCallOpen len berth vessel line capacity declared dwell s
  | .boardStart len berth vessel => Sys2Proof.Machine.execBoardStart len berth vessel s
  | .lastCall len berth vessel => Sys2Proof.Machine.execLastCall len berth vessel s
  | .castOff len berth vessel => Sys2Proof.Machine.execCastOff len berth vessel s
  | .callCancel len berth vessel => Sys2Proof.Machine.execCallCancel len berth vessel s
  | .callQuery len berth => Sys2Proof.Machine.execCallQuery len berth s
  | .callCollect len berth vessel => Sys2Proof.Machine.execCallCollect len berth vessel s
  | .aboardAdjust len berth vessel delta => Sys2Proof.Machine.execAboardAdjust len berth vessel delta s
  | .channelQuery len channel => Sys2Proof.Machine.execChannelQuery len channel s
  | .channelService len channel value => Sys2Proof.Machine.execChannelService len channel value s
  | .channelRelease len channel force => Sys2Proof.Machine.execChannelRelease len channel force s
  | .channelRestore len target => Sys2Proof.Machine.execChannelRestore len target s
  | .egressEnter dest len => Sys2Proof.Machine.execEgressEnter dest len s
  | .egressClear dest len => Sys2Proof.Machine.execEgressClear dest len s
  | .loadBegin dest len kind version count crc => Sys2Proof.Machine.execLoadBegin dest len kind version count crc s
  | .loadSegment dest len index entries => Sys2Proof.Machine.execLoadSegment dest len index entries s
  | .loadCommit dest len => Sys2Proof.Machine.execLoadCommit dest len s
  | .loadAbort dest len => Sys2Proof.Machine.execLoadAbort dest len s
  | .denyEdit dest len op items => Sys2Proof.Machine.execDenyEdit dest len op items s
  | .tableQuery len subject => Sys2Proof.Machine.execTableQuery len subject s
  | .allotSet len token line total block expiry => Sys2Proof.Machine.execAllotSet len token line total block expiry s
  | .allotRemove len token => Sys2Proof.Machine.execAllotRemove len token s
  | .allotQuery len key => Sys2Proof.Machine.execAllotQuery len key s
  | .referAnswer len id verdict fare extra => Sys2Proof.Machine.execReferAnswer len id verdict fare extra s
  | .deskCheck line card => Sys2Proof.Machine.execDeskCheck line card s
  | .settingsGet len number => Sys2Proof.Machine.execSettingsGet len number s
  | .settingsSet len number value => Sys2Proof.Machine.execSettingsSet len number value s
  | .settingsStore len => Sys2Proof.Machine.execSettingsStore len s
  | .storeWriteEnd readBack => Sys2Proof.Machine.execStoreWriteEnd readBack s
  | .settingsReload len => Sys2Proof.Machine.execSettingsReload len s
  | .settingsDefault len => Sys2Proof.Machine.execSettingsDefault len s
  | .present c body => Sys2Proof.Machine.execPresent c body s
  | .withdraw c body => Sys2Proof.Machine.execWithdraw c body s
  | .writeResult c body => Sys2Proof.Machine.execWriteResult c body s
  | .alive c => Sys2Proof.Machine.execAlive c s
  | .ready c => Sys2Proof.Machine.execReady c s
  | .readerFrameDiscarded c why => Sys2Proof.Machine.execReaderFrameDiscarded c why s
  | .readerFrameSent c => Sys2Proof.Machine.execReaderFrameSent c s
  | .attachTimerExpiry c => Sys2Proof.Machine.execAttachTimerExpiry c s
  | .readerInactivityExpiry c => Sys2Proof.Machine.execReaderInactivityExpiry c s
  | .writeTimerExpiry c => Sys2Proof.Machine.execWriteTimerExpiry c s
  | .validationCompletion => Sys2Proof.Machine.execValidationCompletion s
  | .referralTimerExpiry slot => Sys2Proof.Machine.execReferralTimerExpiry slot s
  | .supervisionTimerExpiry => Sys2Proof.Machine.execSupervisionTimerExpiry s
  | .loadInactivityExpiry => Sys2Proof.Machine.execLoadInactivityExpiry s
  | .dwellTimerExpiry b => Sys2Proof.Machine.execDwellTimerExpiry b s
  | .lastCallTimerExpiry b => Sys2Proof.Machine.execLastCallTimerExpiry b s
  | .reportTimerExpiry => Sys2Proof.Machine.execReportTimerExpiry s
  | .passWindowExpiry c => Sys2Proof.Machine.execPassWindowExpiry c s
  | .suspensionTimerExpiry c => Sys2Proof.Machine.execSuspensionTimerExpiry c s
  | .obstructionTimerExpiry c => Sys2Proof.Machine.execObstructionTimerExpiry c s
  | .minimumHoldExpiry => Sys2Proof.Machine.execMinimumHoldExpiry s
  | .beamEvent c beam broken => Sys2Proof.Machine.execBeamEvent c beam broken s
  | .rampUnsafe c => Sys2Proof.Machine.execRampUnsafe c s
  | .rampSafe c => Sys2Proof.Machine.execRampSafe c s
  | .evacuateActive => Sys2Proof.Machine.execEvacuateActive s
  | .evacuateInactive => Sys2Proof.Machine.execEvacuateInactive s
  | .busReplySent => Sys2Proof.Machine.execBusReplySent s

end Sys2Proof.Machine
end

