-- ==== Sys2Proof/Safety.lean ====
section
/-! DEFINITION. What holds of the part at every moment: the conditions that the manual states of its state
as a whole, which every step keeps. -/

namespace Sys2Proof.Machine

/-- Every claim of a channel, live claims first. -/
def ChannelClaims.every (k : ChannelClaims) : List Claim := k.live ++ k.provisional

/-- Every claim of the claim table. -/
def State.allClaims (s : State) : List Claim :=
  (s.claimsOf .c0).every ++ (s.claimsOf .c1).every ++ (s.claimsOf .c2).every ++ (s.claimsOf .c3).every

/-- The seats that an allotment's claims hold: granted and not yet passed (R160). -/
def unpassedOf (token : CardId) : List Claim → Nat
  | [] => 0
  | k :: ks => (if k.allot = some token then k.unpassed else 0) + unpassedOf token ks

/-- One, where something holds. -/
def oneIf (p : Bool) : Nat := if p then 1 else 0

/-- Whether the engine works on a channel's presentation that has not been withdrawn. -/
def State.worksFor (s : State) (c : Chan) : Bool :=
  match s.engine.work with
  | none => false
  | some w => w.requester = .channel c && !w.withdrawn

/-- Whether a referral slot holds a case of a channel. -/
def State.slotFor (s : State) (c : Chan) (i : Slot) : Bool :=
  match s.slot i with
  | none => false
  | some r => r.channel = c

/-- The number of places that hold a presentation of a channel: the pending set, the engine and the two
referral slots (R83). -/
def State.holders (s : State) (c : Chan) : Nat :=
  oneIf (s.arbiter.places.get c).isSome + oneIf (s.worksFor c) + oneIf (s.slotFor c .s0) +
  oneIf (s.slotFor c .s1)

/-- Every setting lies in its range (Table 12-1). -/
structure Settings.InRange (k : Settings) : Prop where
  busAddress : within k.busAddress 1 8
  pierNumber : within k.pierNumber 1 999
  level : ∀ c, within (k.level.get c) 0 7
  passWindow : ∀ c, within (k.passWindow.get c) 3 30
  lastCallLevel : within k.lastCallLevel 0 7
  lastCallLimit : within k.lastCallLimit 20 180
  referralTimeout : within k.referralTimeout 500 5000
  passbackInterval : within k.passbackInterval 0 900
  rereleaseGrace : within k.rereleaseGrace 0 1800
  supervisionPeriod : within k.supervisionPeriod 2 60
  suspendLimit : within k.suspendLimit 10 120
  countReportPeriod : k.countReportPeriod = 0 ∨ within k.countReportPeriod 5 300
  deskLevel : within k.deskLevel 0 7
  agingLimit : within k.agingLimit 1 10

/-- The bus port after a request: its frame has restarted the supervision timer with the period in force and
cleared SILENT, and the reply waits, or none to a broadcast (R172 to R174, R179). -/
def State.repliedBus (s : State) (kind : MsgKind) (dest : Dest) (code : ReplyCode) (body : ReplyBody) : Bus :=
  { s.bus with
    receiver := .hunting false
    supervision := some (s.cfg.supervisionPeriod * 1000)
    period := s.cfg.supervisionPeriod
    silent := false
    reply :=
      match dest with
      | .part => some ⟨s.bus.address, kind.code + 0x80, code, body⟩
      | .broadcast => none }

/-- What the channels' part of an event leaves of a channel: its inputs, tracker, obstruction, service flag
and passage tallies (R55). -/
structure Channel.SameGate (k m : Channel) : Prop where
  beamA : m.beamA = k.beamA
  beamB : m.beamB = k.beamB
  rampSafe : m.rampSafe = k.rampSafe
  tracker : m.tracker = k.tracker
  obstructionTimer : m.obstructionTimer = k.obstructionTimer
  obstructedAt : m.obstructedAt = k.obstructedAt
  service : m.service = k.service
  inward : m.tallies.inward = k.tallies.inward
  outward : m.tallies.outward = k.tallies.outward
  unpaid : m.tallies.unpaid = k.tallies.unpaid
  stray : m.tallies.stray = k.tallies.stray
  egressIn : m.tallies.egressIn = k.tallies.egressIn
  egressOut : m.tallies.egressOut = k.tallies.egressOut

/-- What a verdict or a MODE record sent on a reader line leaves of its port. -/
structure Port.SameLine (p q : Port) : Prop where
  receiver : q.receiver = p.receiver
  line : q.line = p.line
  inactivity : q.inactivity = p.inactivity
  attach : q.attach = p.attach

/-- Every channel keeps its gate and every port its line. -/
structure State.GatesKept (s t : State) : Prop where
  gate : ∀ c, (s.chan c).SameGate (t.chan c)
  line : ∀ c, (s.port c).SameLine (t.port c)

/-- How an event that is no presentation's ends at the channels: gates and lines are kept, the desk check
stays, and a channel's place in the pending set is kept or emptied by a refusal (R55, R96). -/
structure State.ChannelsFollow (s t : State) : Prop where
  gates : s.GatesKept t
  desk : t.arbiter.desk = s.arbiter.desk
  occupied : t.arbiter.deskOccupied = s.arbiter.deskOccupied
  place : ∀ c, t.arbiter.places.get c = s.arbiter.places.get c ∨ t.arbiter.places.get c = none

/-- A notice is the first that an event queues: where the queue has room, it stands behind those already there
under the counter's sequence number; with the queue full it is discarded, takes no sequence number and sets the
dropped mark (R175). -/
def State.QueuesFirst (s t : State) (n : Notice) : Prop :=
  (s.notices.queue.length < Config.noticeQueueSize →
    (s.notices.queue ++ [(s.notices.nextSeq, n)]) <+: t.notices.queue) ∧
  (Config.noticeQueueSize ≤ s.notices.queue.length → t.notices = { s.notices with dropped := true })

/-- Notices under consecutive sequence numbers, from 65535 on to 1 (R175). -/
def numbered : Nat → List Notice → List (Nat × Notice)
  | _, [] => []
  | n, k :: ks => (n, k) :: numbered (if n = 65535 then 1 else n + 1) ks

/-- These notices are the first that an event queues, in their order: those that the queue has room for join it,
and where some find it full they are discarded and the dropped mark is set (R175). -/
def State.QueuesInOrder (s t : State) (ns : List Notice) : Prop :=
  ∀ room : Nat, room = Config.noticeQueueSize - s.notices.queue.length →
    (s.notices.queue ++ numbered s.notices.nextSeq (ns.take room)) <+: t.notices.queue ∧
    (room < ns.length →
      t.notices.queue = s.notices.queue ++ numbered s.notices.nextSeq (ns.take room) ∧
      t.notices.dropped = true ∧ (room = 0 → t.notices.nextSeq = s.notices.nextSeq))

/-- The HEADROOM notice of a call, where an event moved its headroom between 0 and above 0 (R21). -/
def State.headroomNotice (s t : State) (b : Berth) : List Notice :=
  if s.headroom b = 0 ∧ 0 < t.headroom b ∨ 0 < s.headroom b ∧ t.headroom b = 0 then
    [.headroom b (s.call b).vessel (decide (0 < t.headroom b)) (t.headroom b)]
  else []

/-- The OBSTRUCTED CLEARED notice of a channel whose tracker returns to CLEAR, where its flag was set, with the
seconds since, rounded down (R60, assumption 17). -/
def State.obstructionOver (s : State) (c : Chan) : List Notice :=
  match (s.chan c).obstructedAt with
  | none => []
  | some since => [.obstructedCleared c ((s.uptime - since) / 1000)]

/-- The CHANNEL_STATE notice of a channel, where an event changed its state or one of its unlock lines (R55). -/
def State.channelNotice (s t : State) (c : Chan) : List Notice :=
  if (t.chan c).state ≠ (s.chan c).state ∨ (t.chan c).unlockIn ≠ (s.chan c).unlockIn ∨
      (t.chan c).unlockOut ≠ (s.chan c).unlockOut then
    [.channelState c (s.berthOf c) (s.chan c).state (t.chan c).state (t.chan c).unlockIn (t.chan c).unlockOut]
  else []

/-- The CHANNEL_STATE notices of an event, channel 0 to channel 3 (R55). -/
def State.channelNotices (s t : State) : List Notice := Chan.all.flatMap (s.channelNotice t)

/-! ### The arbiter's ranking -/

/-- The arrival uptime of what a requester has pending (R87). -/
def State.pendingSince (s : State) : Requester → Option Nat
  | .channel c => (s.arbiter.places.get c).map Pending.arrival
  | .desk line => match s.arbiter.desk with
    | none => none
    | some p => if p.line = line then some p.arrival else none

/-- What a requester has pending is eligible: a channel holds fewer than 3 claims, and a desk check always is
(R91). -/
def State.Eligible (s : State) : Requester → Prop
  | .channel c => (s.claimsOf c).count < 3
  | .desk _ => True

/-- A presentation that arrived at an uptime is aged: it has been pending longer than AGING_LIMIT (R93). -/
def State.IsAged (s : State) (arrival : Nat) : Prop := s.cfg.agingLimit * 1000 < s.uptime - arrival

/-- A presentation has an effective level: 7 where aged, else the level of its requester (R93). -/
def State.EffectiveLevel (s : State) (q : Requester) (arrival n : Nat) : Prop :=
  s.IsAged arrival ∧ n = 7 ∨
  ¬s.IsAged arrival ∧ n = match q with
    | .channel c => s.cfg.level.get c
    | .desk _ => s.cfg.deskLevel

/-- The place of a requester in the fixed order: channel 0 to channel 3, then the desk (R93). -/
def Requester.order : Requester → Nat
  | .channel c => c.num
  | .desk _ => 4

/-- A presentation ranks before another, by the four tests in order: the higher effective level; an aged one before
one that is not; of two aged ones the earlier arrival; the fixed order (R93). -/
def State.RanksBefore (s : State) (q : Requester) (since : Nat) (r : Requester) (since' : Nat) : Prop :=
  ∀ n m, s.EffectiveLevel q since n → s.EffectiveLevel r since' m →
    m < n ∨ n = m ∧
      (s.IsAged since ∧ ¬s.IsAged since' ∨
        s.IsAged since ∧ s.IsAged since' ∧ (since < since' ∨ since = since' ∧ q.order < r.order) ∨
        ¬s.IsAged since ∧ ¬s.IsAged since' ∧ q.order < r.order)

/-- The engine has just taken a requester's presentation, pending since an uptime: with the tables and the clock as
they stand, neither withdrawn nor marked; the presentation was eligible, its place is empty, and it ranks before
every other eligible one (R91 to R94, R102). -/
structure State.Took (t : State) (w : Work) (since : Nat) : Prop where
  work : t.engine.work = some ⟨w.requester, w.card,
    ⟨t.tables.product, t.tables.active, t.tables.deny.entries, t.clock, t.tables.allot⟩, false, .none⟩
  eligible : t.Eligible w.requester
  emptied : t.pendingSince w.requester = none
  first : ∀ r since', t.pendingSince r = some since' → t.Eligible r → t.RanksBefore w.requester since r since'

/-! ### What the end of claims leaves -/

/-- The allotment table after an ending claim's unpassed seats are returned (R37, R42, R160). -/
def allotReturned (l : List Allotment) (k : Claim) : List Allotment :=
  match k.allot with
  | none => l
  | some token => l.map fun a => if a.token = token then
      { a with remaining := a.remaining + (k.granted - k.passed), held := a.held - (k.granted - k.passed) }
    else a

/-- The journey list after a claim's lapse: the newest entry of the claim, where ADMITTED, becomes BOARDED with
a seat passed, else PAID_NOT_PASSED with a charge, else RESOLVED (R42, R119, Table 6-8). -/
def journeyLapsed (j : List JourneyEntry) (k : Claim) : List JourneyEntry :=
  match k.card with
  | none => j
  | some id => modifyLast (JourneyEntry.isOf id k.tag) (fun e =>
      { e with outcome :=
          if e.outcome ≠ .admitted then e.outcome
          else if 0 < k.passed then .boarded
          else if e.charge ≠ .none then .paidNotPassed
          else .resolved }) j

/-- The journey list after a claim's cancellation with outcome unknown: an UNCERTAIN entry is written, the
oldest of 256 leaving (R38, R117, R118). -/
def State.journeyUnknown (s : State) (c : Chan) (j : List JourneyEntry) (k : Claim) : List JourneyEntry :=
  match k.card, k.tag with
  | some id, some tag => (if j.length < 256 then j else j.drop 1) ++
      [⟨id, s.uptime, k.berth, (s.call k.berth).line, .uncertain, k.fare, s.chargeFor c tag, tag⟩]
  | _, _ => j

/-- The allotment table after claims of a channel end together (R48, R49). -/
def State.allotEnded (s : State) (p : Claim → Bool) (l : List Allotment) (c : Chan) : List Allotment :=
  ((s.claimsOf c).provisional.filter p).foldl allotReturned
    (((s.claimsOf c).live.filter p).foldl allotReturned l)

/-- The journey list after claims of a channel end together: live claims lapse, oldest first, and provisional
claims are cancelled with outcome unknown (R48, R49). -/
def State.journeyEnded (s : State) (p : Claim → Bool) (j : List JourneyEntry) (c : Chan) : List JourneyEntry :=
  ((s.claimsOf c).provisional.filter p).foldl (s.journeyUnknown c)
    (((s.claimsOf c).live.filter p).foldl journeyLapsed j)

/-- A journey entry is the one of a claim: its card, and its write tag or, for a claim without a tag, outcome
ADMITTED (R119). -/
structure Claim.IsEntry (k : Claim) (e : JourneyEntry) : Prop where
  card : k.card = some e.card
  tag : ∀ tag, k.tag = some tag → e.tag = tag
  admitted : k.tag = none → e.outcome = .admitted

/-! ### What the stages decide -/

/-- An entry is the newest of a card in the journey list (R120). -/
def State.NewestIs (s : State) (id : CardId) (e : JourneyEntry) : Prop :=
  ∃ xs ys, s.engine.journey = xs ++ e :: ys ∧ e.card = id ∧ ∀ y ∈ ys, y.card ≠ id

/-- Where the recovery test of a card was not met its newest journey entry becomes RESOLVED, and else the list is
kept (R108). -/
structure State.JourneyResolved (s t : State) (id : CardId) (mismatch : Bool) : Prop where
  kept : mismatch = false → t.engine.journey = s.engine.journey
  resolved : mismatch = true → ∀ xs e ys, s.engine.journey = xs ++ e :: ys → e.card = id →
    (∀ y ∈ ys, y.card ≠ id) → t.engine.journey = xs ++ { e with outcome := .resolved } :: ys

/-- Stages 1 to 3 pass a card: its data lies in its ranges, it is not blocked, the tables are there and the
deny list does not name it (R106, R107). -/
structure Snapshot.Passes (k : Snapshot) (card : Card) (table : ProductTable) (tariff : Tariff) : Prop where
  data : card.dataOk = true
  open_ : card.blocked = false
  product : k.product = some table
  tariff : k.tariff = some tariff
  deny : ∀ e ∈ k.deny, e.id ≠ card.id

/-- Stage 4 passes a card that is no token, because its newest entry fits no line of Table 6-4; or, with
`true`, because the recovery test of an UNCERTAIN entry is not met (R108). -/
inductive State.JourneyPasses (s : State) (card : Card) (line : Nat) : Bool → Prop where
  | noEntry : (∀ e ∈ s.engine.journey, e.card ≠ card.id) → s.JourneyPasses card line false
  | resolved (e : JourneyEntry) : s.NewestIs card.id e → e.outcome = .resolved →
      s.JourneyPasses card line false
  | longAgo (e : JourneyEntry) : s.NewestIs card.id e → e.outcome = .admitted ∨ e.outcome = .boarded →
      s.cfg.passbackInterval * 1000 ≤ s.uptime - e.uptime → s.JourneyPasses card line false
  | pastGrace (e : JourneyEntry) : s.NewestIs card.id e →
      e.outcome = .uncertain ∨ e.outcome = .paidNotPassed →
      s.cfg.rereleaseGrace * 1000 ≤ s.uptime - e.uptime → s.JourneyPasses card line false
  | otherLine (e : JourneyEntry) : s.NewestIs card.id e → e.outcome = .paidNotPassed → e.line ≠ line →
      s.JourneyPasses card line false
  | mismatch (e : JourneyEntry) : s.NewestIs card.id e → e.outcome = .uncertain →
      s.uptime - e.uptime < s.cfg.rereleaseGrace * 1000 →
      (∀ l, card.last = some l → l.pier ≠ s.cfg.pierNumber ∨ l.tag ≠ e.tag) →
      s.JourneyPasses card line true

/-- Stages 1 to 5 pass a card on to the product stages (R105 to R109). -/
structure State.ReachesProduct (s : State) (card : Card) (snap : Snapshot) (line : Nat) (mismatch : Bool)
    (table : ProductTable) (tariff : Tariff) : Prop where
  passes : snap.Passes card table tariff
  noToken : s.allotOf card.id = none
  journey : s.JourneyPasses card line mismatch

/-- Stages 1 to 7 pass a card on to stage 8 with its product (R109). -/
structure State.ReachesKind (s : State) (card : Card) (snap : Snapshot) (line : Nat) (mismatch : Bool)
    (tariff : Tariff) (p : ProductEntry) : Prop where
  reaches : ∃ table, s.ReachesProduct card snap line mismatch table tariff ∧
    (table.entries.find? fun e => e.number = card.product) = some p
  line : p.lines = .all ∧ 1 ≤ line ∧ line ≤ 63 ∨ ∃ ls, p.lines = .lines ls ∧ line ∈ ls

/-- A token reaches the allotment path, its entry as it applies to the presentation good for the line and not
expired (R108, R109, R159, R161). -/
structure State.ReachesAllotment (s : State) (card : Card) (snap : Snapshot) (line : Nat) (a : Allotment) :
    Prop where
  passes : ∃ table tariff, snap.Passes card table tariff
  token : ∃ entry, s.allotOf card.id = some entry ∧ a = snap.applied entry
  current : ∀ e now, a.expiry = some e → s.clock = some now → e.le now = false
  line : a.line = 0 ∨ a.line = line

/-- What stages 1 to 8 decide for a card on a line, with whether the recovery test of stage 4 was not met
(Tables 6-2, 6-4 and 6-5, R106 to R110, R159). A pass is held against the day by day numbers (assumption 38), and
the expiry of a token against the clock at the completion, at a desk check too (assumption 39). -/
inductive State.Decides (s : State) (card : Card) (snap : Snapshot) (line : Nat) :
    Decision → Bool → Prop where
  | badData : card.dataOk = false → s.Decides card snap line (.refuse .badCard) false
  | blocked : card.dataOk = true → card.blocked = true → s.Decides card snap line (.refuse .denied) false
  | notReady : card.dataOk = true → card.blocked = false → snap.product = none ∨ snap.tariff = none →
      s.Decides card snap line (.refuse .notReady) false
  | denied (table : ProductTable) (tariff : Tariff) (e : DenyEntry) : card.dataOk = true →
      card.blocked = false → snap.product = some table → snap.tariff = some tariff →
      (snap.deny.find? fun e => e.id = card.id) = some e →
      s.Decides card snap line (if e.action = .block then .deniedBlock else .refuse .denied) false
  | tokenExpired (table : ProductTable) (tariff : Tariff) (a : Allotment) (e now : ClockTime) :
      snap.Passes card table tariff → s.allotOf card.id = some a → (snap.applied a).expiry = some e →
      s.clock = some now → e.le now = true → s.Decides card snap line (.refuse .expired) false
  | tokenWrongLine (table : ProductTable) (tariff : Tariff) (a : Allotment) :
      snap.Passes card table tariff → s.allotOf card.id = some a →
      (∀ e now, (snap.applied a).expiry = some e → s.clock = some now → e.le now = false) →
      (snap.applied a).line ≠ 0 → (snap.applied a).line ≠ line →
      s.Decides card snap line (.refuse .wrongLine) false
  | tokenSpent (a : Allotment) : s.ReachesAllotment card snap line a → a.remaining = 0 →
      s.Decides card snap line (.refer (.allotmentSpent a.total a.passed)) false
  | token (a : Allotment) : s.ReachesAllotment card snap line a → 0 < a.remaining →
      s.Decides card snap line (.accept { Terms.plain .acceptFree .allotment with
        seats := min a.remaining a.block, partialOk := true, allot := some a.token }) false
  | passback (table : ProductTable) (tariff : Tariff) (e : JourneyEntry) : snap.Passes card table tariff →
      s.allotOf card.id = none → s.NewestIs card.id e → e.outcome = .admitted ∨ e.outcome = .boarded →
      s.uptime - e.uptime < s.cfg.passbackInterval * 1000 →
      s.Decides card snap line (.refuse .passback) false
  | recovery (table : ProductTable) (tariff : Tariff) (e : JourneyEntry) (l : LastBoarding) :
      snap.Passes card table tariff → s.allotOf card.id = none → s.NewestIs card.id e →
      e.outcome = .uncertain → s.uptime - e.uptime < s.cfg.rereleaseGrace * 1000 → card.last = some l →
      l.pier = s.cfg.pierNumber → l.tag = e.tag → s.Decides card snap line (.accept .reused) false
  | rerelease (table : ProductTable) (tariff : Tariff) (e : JourneyEntry) :
      snap.Passes card table tariff → s.allotOf card.id = none → s.NewestIs card.id e →
      e.outcome = .paidNotPassed → s.uptime - e.uptime < s.cfg.rereleaseGrace * 1000 → e.line = line →
      s.Decides card snap line (.accept .reused) false
  | unknownProduct (m : Bool) (table : ProductTable) (tariff : Tariff) :
      s.ReachesProduct card snap line m table tariff → (∀ p ∈ table.entries, p.number ≠ card.product) →
      s.Decides card snap line (.refer .unknownProduct) m
  | wrongLine (m : Bool) (table : ProductTable) (tariff : Tariff) (p : ProductEntry) :
      s.ReachesProduct card snap line m table tariff →
      (table.entries.find? fun e => e.number = card.product) = some p →
      (p.lines = .all → ¬(1 ≤ line ∧ line ≤ 63)) → (∀ ls, p.lines = .lines ls → line ∉ ls) →
      s.Decides card snap line (.refuse .wrongLine) m
  | partMissing (m : Bool) (tariff : Tariff) (p : ProductEntry) : s.ReachesKind card snap line m tariff p →
      p.kind = .period ∧ card.passEnd = none ∨ p.kind = .bundle ∧ card.rides = none ∨
        p.kind = .storedValue ∧ card.value = none →
      s.Decides card snap line (.refuse .badCard) m
  | passExpired (m : Bool) (tariff : Tariff) (p : ProductEntry) (day : Nat) (now : ClockTime) :
      s.ReachesKind card snap line m tariff p → p.kind = .period → card.passEnd = some day →
      snap.clock = some now → day < now.day → s.Decides card snap line (.refuse .expired) m
  | pass (m : Bool) (tariff : Tariff) (p : ProductEntry) (day : Nat) :
      s.ReachesKind card snap line m tariff p → p.kind = .period → card.passEnd = some day →
      (∀ now, snap.clock = some now → now.day ≤ day) →
      s.Decides card snap line (.accept (.plain .accept .paid)) m
  | noRides (m : Bool) (tariff : Tariff) (p : ProductEntry) : s.ReachesKind card snap line m tariff p →
      p.kind = .bundle → card.rides = some 0 → s.Decides card snap line (.refuse .exhausted) m
  | ride (m : Bool) (tariff : Tariff) (p : ProductEntry) (n : Nat) : s.ReachesKind card snap line m tariff p →
      p.kind = .bundle → card.rides = some (n + 1) →
      s.Decides card snap line (.accept { Terms.plain .accept .paid with rides := some n, charge := .ride }) m
  | lowBalance (m : Bool) (tariff : Tariff) (p : ProductEntry) (v : ValuePart) :
      s.ReachesKind card snap line m tariff p → p.kind = .storedValue → card.value = some v →
      storedValueFare tariff line p.cls snap.clock card v = none →
      s.Decides card snap line (.refuse .lowBalance) m
  | charged (m : Bool) (tariff : Tariff) (p : ProductEntry) (v : ValuePart) (fare : Nat) (after : ValuePart) :
      s.ReachesKind card snap line m tariff p → p.kind = .storedValue → card.value = some v →
      storedValueFare tariff line p.cls snap.clock card v = some (fare, after) →
      s.Decides card snap line (.accept { Terms.plain .accept .paid with
        fare := fare, value := some after, charge := if 0 < fare then .fare else .none }) m
  | account (m : Bool) (tariff : Tariff) (p : ProductEntry) : s.ReachesKind card snap line m tariff p →
      p.kind = .account →
      s.Decides card snap line (.refer (.account (fareFigures tariff line p.cls snap.clock card).fare
        (fareFigures tariff line p.cls snap.clock card).peak)) m
  | staff (m : Bool) (tariff : Tariff) (p : ProductEntry) : s.ReachesKind card snap line m tariff p →
      p.kind = .staff → s.Decides card snap line (.accept (.plain .acceptFree .staff)) m

/-- The verdict with which stage 9 refuses a case, by its four tests in order (R111). -/
inductive State.RefusesAtCompletion (s : State) (c : Chan) : VerdictCode → Prop where
  | egress : (s.chan c).state = .egressHeld → s.RefusesAtCompletion c .egress
  | suspended : (s.chan c).state = .suspended → s.RefusesAtCompletion c .gangwayClosed
  | service : (s.chan c).state ≠ .egressHeld → (s.chan c).state ≠ .suspended →
      (s.chan c).service = .outOfService → s.RefusesAtCompletion c .notServed
  | call : (s.chan c).state ≠ .egressHeld → (s.chan c).state ≠ .suspended →
      (s.chan c).service = .inService →
      (∀ b, s.berthOf c = some b → (s.call b).state.isBoarding = false) →
      s.RefusesAtCompletion c .notBoarding

/-- A case passes the four tests of stage 9 on the call of a berth (R111). -/
structure State.ReadyFor (s : State) (c : Chan) (b : Berth) : Prop where
  held : (s.chan c).state ≠ .egressHeld
  ramp : (s.chan c).state ≠ .suspended
  service : (s.chan c).service = .inService
  berth : s.berthOf c = some b
  boarding : (s.call b).state.isBoarding = true

/-- The seats that stage 10 grants of those asked: all of them, or, where it may be partial, the headroom
(R33). -/
def State.Grants (s : State) (b : Berth) (seats : Nat) (partialOk : Bool) (n : Nat) : Prop :=
  seats ≤ s.headroom b ∧ n = seats ∨
  partialOk = true ∧ 0 < s.headroom b ∧ s.headroom b < seats ∧ n = s.headroom b

/-- A verdict with no write goes out at a channel, where its presentation is outstanding and no frame is going
out, and the presentation is outstanding no more (R82, R84, Table 6-6). -/
structure State.Answers (s t : State) (c : Chan) (card : Card) (code : VerdictCode) : Prop where
  taken : (t.port c).outstanding = none
  verdict : (s.port c).outstanding ≠ none → (s.port c).sending = none →
    (t.port c).sending = some (.verdict ⟨code, 0, card.value.map ValuePart.balance, none⟩)

/-- A verdict with a write-back of the last-boarding part alone goes out at a channel, where its presentation is
outstanding and no frame is going out: fare 0 on the card, under the tag drawn and the clock as it stands; the
presentation is outstanding no more and the write is awaited for 1 s (R82, R85, R114, R154, Table 6-6). -/
structure State.AnswersWithWrite (s t : State) (c : Chan) (b : Berth) (card : Card) (code : VerdictCode)
    (fare : Nat) : Prop where
  taken : (t.port c).outstanding = none
  awaited : (s.port c).outstanding ≠ none → (t.port c).awaited = some ⟨s.engine.nextTag, 1000⟩
  verdict : (s.port c).outstanding ≠ none → (s.port c).sending = none → (t.port c).sending = some (.verdict
    ⟨code, fare, card.value.map ValuePart.balance,
      some ⟨s.engine.nextTag, none, none,
        some ⟨(s.clock.getD ⟨0, 0⟩).day, (s.clock.getD ⟨0, 0⟩).secs, (s.call b).line, s.cfg.pierNumber, 0,
          s.engine.nextTag⟩, false⟩⟩)

/-! ### What a fallback does -/

/-- The fallback setting of a cause has a value (R155). -/
def State.FallbackIs (s : State) (f : Fallback) : Cause → Prop
  | .unknownProduct => s.cfg.fallbackUnknown = f
  | .account .. => s.cfg.fallbackAccount = f
  | .allotmentSpent .. => s.cfg.fallbackSpent = f

/-- The verdict of a fallback REFUSE (Table 9-2). -/
def refusedAs : CauseKind → VerdictCode
  | .unknownProduct => .unknownProduct
  | .account => .refusedOnline
  | .allotmentSpent => .spent

/-- What a fallback ACCEPT asks for: the claim's kind, the seats, whether the grant may be partial, and the verdict
(Table 9-2). -/
def askedBy (block : Nat) : CauseKind → ClaimKind × Nat × Bool × VerdictCode
  | .unknownProduct => (.free, 1, false, .acceptFree)
  | .account => (.account, 1, false, .accept)
  | .allotmentSpent => (.free, block, true, .acceptFree)

/-- The block size of a case at its completion: that of its token's entry as it applies to the presentation
(assumption 26), and 1 for a card that is no token (assumption 13). -/
def State.BlockIs (s : State) (card : Card) (snap : Snapshot) (block : Nat) : Prop :=
  s.allotOf card.id = none ∧ block = 1 ∨ ∃ a, s.allotOf card.id = some a ∧ block = (snap.applied a).block

/-- A case that the stages refer is decided at its completion: the host is SILENT, or both slots are held (R151,
R155). -/
structure State.DecidedAtOnce (s : State) (card : Card) (snap : Snapshot) (line : Nat) (cause : Cause)
    (mismatch : Bool) : Prop where
  refers : s.Decides card snap line (.refer cause) mismatch
  unheard : s.bus.silent = true ∨ ∀ i, s.slot i ≠ none

/-- A completion refuses its card before stage 9: a refusal of stages 1 to 8, or the fallback REFUSE of a case
decided at once (R105, R151, Table 9-2). -/
inductive State.RefusesCard (s : State) (card : Card) (snap : Snapshot) (line : Nat) :
    VerdictCode → Bool → Prop
  | stages (code : VerdictCode) (m : Bool) : s.Decides card snap line (.refuse code) m →
      s.RefusesCard card snap line code m
  | fallback (cause : Cause) (m : Bool) : s.DecidedAtOnce card snap line cause m →
      s.FallbackIs .refuse cause → s.RefusesCard card snap line (refusedAs cause.kind) m

/-- A completion takes its card to stage 9 on terms, with the clock that its write-back bears: an accept of stages 1
to 8 with the clock of the take, or the fallback ACCEPT of a case decided at once, at fare 0 with the clock as it
stands (R105, R114, R151, R155, Table 9-2, assumption 9). -/
inductive State.AcceptsCard (s : State) (card : Card) (snap : Snapshot) (line : Nat) :
    Terms → Option ClockTime → Bool → Prop
  | stages (k : Terms) (m : Bool) : s.Decides card snap line (.accept k) m →
      s.AcceptsCard card snap line k snap.clock m
  | fallback (cause : Cause) (m : Bool) (block : Nat) (kind : ClaimKind) (seats : Nat) (partialOk : Bool)
      (code : VerdictCode) : s.DecidedAtOnce card snap line cause m → s.FallbackIs .accept cause →
      s.BlockIs card snap block → askedBy block cause.kind = (kind, seats, partialOk, code) →
      s.AcceptsCard card snap line { Terms.plain code kind with seats := seats, partialOk := partialOk } s.clock m

/-- The state with what a verdict touches at one channel taken from another: what the line holds and sends, and the
refusals tally. -/
def State.withLine (s u : State) (c : Chan) : State :=
  { s with
    channels := s.channels.set c { s.chan c with
      tallies := { (s.chan c).tallies with refusals := (u.chan c).tallies.refusals } }
    ports := s.ports.set c { s.port c with
      outstanding := (u.port c).outstanding
      awaited := (u.port c).awaited
      sending := (u.port c).sending
      waiting := (u.port c).waiting } }

/-- The state with a write tag drawn for a channel and noted with charge NONE (R115, R155). -/
def State.tagged (s : State) (c : Chan) : State :=
  { s with engine := { s.engine with
    nextTag := if s.engine.nextTag = 65535 then 1 else s.engine.nextTag + 1
    notes := s.engine.notes.set c (some ⟨s.engine.nextTag, .none⟩) } }

/-- The fallback of a referral's cause takes the part from one state to another with a verdict: the cause's verdict
for REFUSE, and for ACCEPT the refusal of stage 9, or FULL, or a provisional claim at fare 0 with its write awaited
(R111, R112, R155, Table 9-2). -/
inductive State.FallsBack (s u : State) (r : Referral) : VerdictCode → Prop
  | refused : s.FallbackIs .refuse r.cause → u = s.withLine u r.channel →
      s.Answers u r.channel r.card (refusedAs r.cause.kind) → s.FallsBack u r (refusedAs r.cause.kind)
  | stageNine (code : VerdictCode) : s.FallbackIs .accept r.cause → s.RefusesAtCompletion r.channel code →
      u = s.withLine u r.channel → s.Answers u r.channel r.card code → s.FallsBack u r code
  | full (b : Berth) (kind : ClaimKind) (seats : Nat) (partialOk : Bool) (code : VerdictCode) :
      s.FallbackIs .accept r.cause → askedBy r.block r.cause.kind = (kind, seats, partialOk, code) →
      s.ReadyFor r.channel b →
      3 ≤ (s.claimsOf r.channel).count ∨ (∀ n, ¬s.Grants b seats partialOk n) →
      u = (s.tagged r.channel).withLine u r.channel → s.Answers u r.channel r.card .full →
      s.FallsBack u r .full
  | granted (b : Berth) (kind : ClaimKind) (seats : Nat) (partialOk : Bool) (n : Nat) (code : VerdictCode) :
      s.FallbackIs .accept r.cause → askedBy r.block r.cause.kind = (kind, seats, partialOk, code) →
      s.ReadyFor r.channel b → (s.claimsOf r.channel).count < 3 → s.Grants b seats partialOk n →
      u = State.withLine ({ s.tagged r.channel with
        claims := s.claims.set r.channel { s.claimsOf r.channel with
          provisional := (s.claimsOf r.channel).provisional ++
            [⟨b, kind, n, 0, some r.card.id, 0, none, some s.engine.nextTag, s.uptimeSecs, 0⟩] } } : State) u
        r.channel →
      s.AnswersWithWrite u r.channel b r.card code 0 →
      s.FallsBack u r code

/-- A held referral, if a slot holds one, is resolved by its fallback, and else nothing changes (R157). -/
def State.SlotFallsBack (s u : State) : Option Referral → Prop
  | none => u = s
  | some r => ∃ code, s.FallsBack u r code

/-- The boarded counts, the alightings and the excess alightings of a call record. -/
def Call.counts (k : Call) : List Nat :=
  [k.boarded.paid, k.boarded.free, k.boarded.account, k.boarded.allotment, k.boarded.staff, k.boarded.unpaid,
    k.alighted, k.excess]

/-- The tallies of a channel. -/
def Tallies.counts (t : Tallies) : List Nat :=
  [t.inward, t.outward, t.unpaid, t.stray, t.egressIn, t.egressOut, t.taken, t.refusals]

namespace Safety

/-- Every count of a call record and every tally of a channel stays within its saturation at 65535 (R2, R68,
R69). -/
def CountsBounded (s : State) : Prop :=
  (∀ b, ∀ n ∈ (s.call b).counts, n ≤ Config.countMax) ∧
  ∀ c, ∀ n ∈ (s.chan c).tallies.counts, n ≤ Config.countMax

/-- The notice queue holds at most 32 notices and the journey list at most 256 entries (R117, R175). -/
def QueuesBounded (s : State) : Prop :=
  s.notices.queue.length ≤ Config.noticeQueueSize ∧ s.engine.journey.length ≤ Config.journeySize

/-- A channel holds at most 3 claims (R32). -/
def ClaimsLimited (s : State) : Prop := ∀ c, (s.claimsOf c).count ≤ Config.claimsPerChannel

/-- Every claim still holds a seat, and every block size is 1 to 9 seats: of the allotments, as the work's
take found them, and of the held referrals (R44, R158, R161). -/
def ClaimsUnpassed (s : State) : Prop :=
  (∀ c, ∀ k ∈ (s.claimsOf c).every, k.passed < k.granted) ∧
  (∀ a ∈ s.tables.allot, within a.block 1 9) ∧
  (∀ w, s.engine.work = some w → ∀ a ∈ w.snap.allot, within a.block 1 9) ∧
  ∀ i r, s.slot i = some r → within r.block 1 9

/-- Every claim of a channel stands on the call of the channel's berth, which is BOARDING or LAST_CALL
(R31). -/
def ClaimsOnBoarding (s : State) : Prop :=
  ∀ c, ∀ k ∈ (s.claimsOf c).every,
    s.berthOf c = some k.berth ∧ (s.call k.berth).state.isBoarding = true

/-- While egress is active no call is open (R24, R165). -/
def EgressEndsCalls (s : State) : Prop :=
  s.egress.active = true → ∀ b, (s.call b).state.isOpen = false

/-- No more passengers have alighted than were aboard (R25). -/
def AboardCounted (s : State) : Prop :=
  ∀ b, (s.call b).alighted ≤ (s.call b).declared + (s.call b).boarded.sum

/-- An open call whose aboard figure and held seats exceed its capacity has the over-capacity mark set
(R28). -/
def OverCapacityMarked (s : State) : Prop :=
  ∀ b, (s.call b).state.isOpen = true → s.overFull b = true → (s.call b).overCapacity = true

/-- The dwell timer runs exactly in BOARDING and the last-call timer exactly in LAST_CALL (R15, R16). -/
def TimersFollowCalls (s : State) : Prop :=
  ∀ b, ((s.timersOf b).dwell.isSome = true ↔ (s.call b).state = .boarding) ∧
    ((s.timersOf b).lastCall.isSome = true ↔ (s.call b).state = .lastCall)

/-- While the supply is up every channel is in its derived state and drives that state's lines, and a
reader whose line is UP shows the channel's mode (R54, R56, R71). -/
def ChannelsDerived (s : State) : Prop :=
  s.power = .running → ∀ c,
    (s.chan c).state = s.deriveState c ∧
    ((s.chan c).unlockIn, (s.chan c).unlockOut) = s.lines c (s.chan c).state ∧
    ((s.port c).line = .up → (s.chan c).modeShown = some (s.displayMode c))

/-- While the engine is FREE no pending presentation is eligible (R92). -/
def FreeEngineIdle (s : State) : Prop := s.engine.work = none → s.candidates = []

/-- A presentation is outstanding, or a write awaited, only on a line that is UP, and never both (R82,
R83, R85). -/
def PortsSound (s : State) : Prop :=
  ∀ c, ((s.port c).outstanding.isSome = true → (s.port c).line = .up) ∧
    ((s.port c).awaited.isSome = true → (s.port c).line = .up ∧ (s.port c).outstanding = none)

/-- An outstanding presentation is held at exactly one place, and no place holds another (R83). -/
def HeldOnce (s : State) : Prop := ∀ c, s.holders c = oneIf (s.port c).outstanding.isSome

/-- For every allotment remaining, held and passed make the total; held is what the claims on its token
hold; no two entries share a token; and a claim's allotment has its entry (R158, R160). -/
def AllotmentsBalanced (s : State) : Prop :=
  (∀ a ∈ s.tables.allot, a.remaining + a.held + a.passed = a.total ∧
    a.held = unpassedOf a.token s.allClaims) ∧
  s.tables.allot.Pairwise (fun a b => a.token ≠ b.token) ∧
  s.tables.allot.length ≤ Config.allotSize ∧
  ∀ k ∈ s.allClaims, ∀ token, k.allot = some token → ∃ a ∈ s.tables.allot, a.token = token

/-- A VACANT record has the zeroed values of Table 1-1 (R5, R13, R23). -/
def VacantZeroed (s : State) : Prop := ∀ b, (s.call b).state = .vacant → s.call b = .zeroed

/-- The write tag, referral id and notice counters never stand at 0 (R115, R151, R175). -/
def CountersRun (s : State) : Prop :=
  within s.engine.nextTag 1 65535 = true ∧ within s.engine.nextReferral 1 255 = true ∧
  within s.notices.nextSeq 1 65535 = true

/-- The pier clock reads a second of the day (R149). -/
def ClockInRange (s : State) : Prop := ∀ t, s.clock = some t → t.secs ≤ Config.lastSecond

/-- Every working setting lies in its range (R180, R184). -/
def SettingsInRange (s : State) : Prop := s.cfg.InRange

/-- The store write count never passes 10 000 (R182). -/
def StoresCounted (s : State) : Prop := s.settings.writeCount ≤ Config.storeLimit

end Safety

end Sys2Proof.Machine
end

