-- ==== Sys2Proof/Machine/Receiver.lean ====
section
/-! DEFINITION. How octets of a line become frames, and what each frame is to the part: the receivers of
the reader ports and of the bus port, and the commands that whole frames stand for (R76, R77, R172 to
R174). -/

namespace Sys2Proof.Machine

/-! ### The receiver (R76, R172) -/

/-- The number of octets before the body: kind and length on a reader line (R76). -/
def readerHead : Nat := 2

/-- The number of octets before the body: address, kind and length on the bus (R172). -/
def busHead : Nat := 3

/-- One octet while hunting for the sync pair (R76). -/
def Receiver.hunt (sync : Bool) (o : Octet) : Receiver :=
  if o = 0xA9#8 then .hunting true
  else if sync && o = 0x5C#8 then .receiving []
  else .hunting false

/-- The octets of a frame so far: the receiver after them and, with the last octet of a valid frame, what
the frame's CRC covers. A length above 250 discards the frame at the length octet, and a CRC that does not
match discards it at its last octet (R76). -/
def Receiver.collect (head : Nat) (got : List Octet) : Receiver × Option (List Octet) :=
  if got.length < head then (.receiving got, none)
  else
    let n := numberOf ((got.drop (head - 1)).take 1)
    if Config.maxBody < n then (.hunting false, none)
    else if got.length < head + n + 2 then (.receiving got, none)
    else if crc16 (got.take (head + n)) = BitVec.ofNat 16 (numberOf (got.drop (head + n))) then
      (.hunting false, some (got.take (head + n)))
    else (.hunting false, none)

/-- One octet at a receiver: `gap` tells that more than 5 ms have passed since the octet before it, which
discards a frame begun and makes this the first octet of hunting (R76). DESIGN CHOICE (assumption 31): such a
gap between A9h and 5Ch undoes the A9h, too. -/
def Receiver.take (head : Nat) (r : Receiver) (gap : Bool) (o : Octet) :
    Receiver × Option (List Octet) :=
  match r with
  | .hunting sync => (Receiver.hunt (sync && !gap) o, none)
  | .receiving got =>
    if gap then (Receiver.hunt false o, none) else Receiver.collect head (got ++ [o])

/-- Octets that arrive without a gap: the receiver after them and the valid frames among them, in
order. -/
def Receiver.takeAll (head : Nat) : Receiver → List Octet → Receiver × List (List Octet)
  | r, [] => (r, [])
  | r, o :: os =>
    let t := Receiver.take head r false o
    let rest := Receiver.takeAll head t.1 os
    (rest.1, t.2.toList ++ rest.2)

/-! ### What frames are to the part -/

/-- The command that a valid frame of a reader line is, from the octets its CRC covers (R77). -/
def readerCommand (c : Chan) (frame : List Octet) : Instr :=
  let body := frame.drop readerHead
  match numberOf (frame.take 1) with
  | 0x61 =>
    match Card.parse body with
    | none => .readerFrameDiscarded c .malformed
    | some _ => .present c body
  | 0x62 =>
    match withdrawCard body with
    | none => .readerFrameDiscarded c .malformed
    | some _ => .withdraw c body
  | 0x63 =>
    match writeResultOf body with
    | none => .readerFrameDiscarded c .malformed
    | some _ => .writeResult c body
  | 0x64 => .alive c
  | 0x65 => .ready c
  | _ => .readerFrameDiscarded c .wrongKind

/-- What a valid bus frame is to the part: a request of a message kind or of an unknown kind, a broadcast
that is executed or ignored, or a frame discarded (R172 to R174). -/
inductive BusFrame where
  | request (kind : MsgKind) (dest : Dest) (body : List Octet)
  | command (i : Instr)
  deriving DecidableEq, Repr

/-- The message kind of a kind octet (Table 11-1). -/
def MsgKind.ofCode (code : Nat) : Option MsgKind := MsgKind.all.find? fun k => k.code = code

/-- What the octets that a valid bus frame's CRC covers are to a part with an address in use. -/
def busFrameOf (address : Nat) (frame : List Octet) : BusFrame :=
  let addressed := numberOf (frame.take 1)
  let kind := numberOf ((frame.drop 1).take 1)
  let body := frame.drop busHead
  if addressed = 0 then
    match MsgKind.ofCode kind with
    | some k => if k.broadcast then .request k .broadcast body else .command (.broadcastIgnored kind)
    | none => .command (.broadcastIgnored kind)
  else if addressed ≠ address then .command (.busFrameDiscarded .otherAddress)
  else if 0x80 ≤ kind then .command (.busFrameDiscarded .foreignReply)
  else
    match MsgKind.ofCode kind with
    | some k => .request k .part body
    | none => .command (.unknownKind kind)

/-- The kind octet of a record the part sends (Table 4-1). -/
def ReaderRecord.kind : ReaderRecord → Nat
  | .setup .. => 0x71
  | .verdict _ => 0x72
  | .mode _ => 0x73

/-- The frame of a VERDICT as the part sends it (R82, Table 11-5). -/
def verdictFrame (v : Verdict) : List Octet := readerFrame 0x72 v.octets

/-! ### Call records in replies (Table 11-7) -/

/-- The body of a CALL_QUERY or CALL_COLLECT reply that is OK: the reply code and the record. -/
def callReplyBody (r : CallReport) : List Octet := octetsOf 1 ReplyCode.ok.octet ++ r.octets

end Sys2Proof.Machine
end

