-- ==== Sys2Proof/WellFormed.lean ====
section
/-! DEFINITION. Which commands a line can carry: the fields fit the octets that carry them, and kinds that
are ignored or unknown are kinds of no other command. No meaning depends on it: every command has its
effect, well-formed or not (assumption 6). -/

namespace Sys2Proof

open Sys2Proof.Machine

/-- A number that one octet carries. -/
def octetField (n : Nat) : Bool := n < 256

/-- A number that two octets carry. -/
def wordField (n : Nat) : Bool := n < 65536

/-- A number that four octets carry. -/
def longField (n : Nat) : Bool := n < 4294967296

/-- A signed figure that four octets carry (11.7). -/
def signedField (i : Int) : Bool := -2147483648 ≤ i && i < 2147483648

/-- A body of at most 250 octets (R172). -/
def bodyFits (os : List Octet) : Bool := os.length ≤ Config.maxBody

/-- A day and seconds as carried (11.7). -/
def timeField (t : ClockTime) : Bool := wordField t.day && longField t.secs

/-- A line set as carried. -/
def lineSetField : LineSet → Bool
  | .all => true
  | .lines ls => ls.all octetField

/-- What a load entry says fits its fields. -/
def contentFits : EntryContent → Bool
  | .product number _ cls lines => octetField number && octetField cls && lineSetField lines
  | .deny .. => true
  | .general effective unit window creditCap overdraft =>
    timeField effective && octetField unit && wordField window && wordField creditCap && wordField overdraft
  | .line number fare => octetField number && wordField fare
  | .cls number discount cap => octetField number && octetField discount && wordField cap
  | .band start stop multiplier => wordField start && wordField stop && wordField multiplier
  | .unknownTariff => true

/-- The entries of a segment fit one body, and each is carried by octets (R140). -/
def entriesFit (es : List LoadEntry) : Bool :=
  bodyFits (es.flatMap LoadEntry.octets) && es.all fun e => e.octets ≠ [] && contentFits e.content

/-- The value of a setting as carried. -/
def valueFits : SettingValue → Bool
  | .num n => wordField n
  | .noBerth | .posture _ | .fallback _ => true

/-- What an ALLOT_QUERY names, as carried. -/
def keyFits : AllotKey → Bool
  | .token _ => true
  | .index n => octetField n

/-- What a TABLE_QUERY names, as carried. -/
def subjectFits : Subject → Bool
  | .product number => octetField number
  | .summary | .deny _ | .tariff _ | .unknown => true

/-- What a CHANNEL_RESTORE names, as carried. -/
def targetFits : RestoreTarget → Bool
  | .one n => octetField n
  | .all => true

/-- An expiry as carried. -/
def expiryFits : Option ClockTime → Bool
  | none => true
  | some t => timeField t

/-- A kind that is no message kind, in a frame that is no reply (R172, R174). -/
def isUnknownKind (kind : Nat) : Bool := kind < 0x80 && (MsgKind.ofCode kind).isNone

/-- A kind that is ignored when broadcast (R173). -/
def isIgnoredKind (kind : Nat) : Bool :=
  octetField kind &&
  (match MsgKind.ofCode kind with
   | none => true
   | some k => !k.broadcast)

/-- Whether a line can carry a command. -/
def Instr.wf : Instr → Bool
  | .powerOn _ | .supplyDip | .supplyRecovered _ | .commandStartUp _ => true
  | .poll _ | .status _ | .statusClear _ | .restart _ => true
  | .unknownKind kind => isUnknownKind kind
  | .broadcastIgnored kind => isIgnoredKind kind
  | .busFrameDiscarded _ => true
  | .clockSet _ _ day secs => wordField day && longField secs
  | .clockSecond => true
  | .callOpen _ berth vessel line capacity declared dwell =>
    octetField berth && wordField vessel && octetField line && wordField capacity && wordField declared &&
    wordField dwell
  | .boardStart _ berth vessel | .lastCall _ berth vessel | .castOff _ berth vessel
  | .callCancel _ berth vessel | .callCollect _ berth vessel => octetField berth && wordField vessel
  | .callQuery _ berth => octetField berth
  | .aboardAdjust _ berth vessel delta => octetField berth && wordField vessel && signedField delta
  | .channelQuery _ channel => octetField channel
  | .channelService _ channel _ => octetField channel
  | .channelRelease _ channel _ => octetField channel
  | .channelRestore _ target => targetFits target
  | .egressEnter _ _ | .egressClear _ _ => true
  | .loadBegin _ _ _ version count _ => wordField version && wordField count
  | .loadSegment _ _ index entries => wordField index && entriesFit entries
  | .loadCommit _ _ | .loadAbort _ _ => true
  | .denyEdit _ _ _ items => items.length ≤ Config.maxBody
  | .tableQuery _ subject => subjectFits subject
  | .allotSet _ _ line total block expiry =>
    octetField line && wordField total && octetField block && expiryFits expiry
  | .allotRemove _ _ => true
  | .allotQuery _ key => keyFits key
  | .referAnswer _ id _ fare extra => octetField id && wordField fare && wordField extra
  | .deskCheck line card => octetField line && card.length < Config.maxBody
  | .settingsGet _ number => octetField number
  | .settingsSet _ number value => octetField number && valueFits value
  | .settingsStore _ | .storeWriteEnd _ | .settingsReload _ | .settingsDefault _ => true
  | .present _ body | .withdraw _ body | .writeResult _ body => bodyFits body
  | .alive _ | .ready _ | .readerFrameDiscarded _ _ | .readerFrameSent _ => true
  | .attachTimerExpiry _ | .readerInactivityExpiry _ | .writeTimerExpiry _ => true
  | .validationCompletion | .referralTimerExpiry _ | .supervisionTimerExpiry => true
  | .loadInactivityExpiry | .dwellTimerExpiry _ | .lastCallTimerExpiry _ | .reportTimerExpiry => true
  | .passWindowExpiry _ | .suspensionTimerExpiry _ | .obstructionTimerExpiry _ => true
  | .minimumHoldExpiry => true
  | .beamEvent _ _ _ | .rampUnsafe _ | .rampSafe _ | .evacuateActive | .evacuateInactive => true
  | .busReplySent => true

/-- The message kind of a command that is a request; none for an event, and for a request of no known
kind (Table 11-1). -/
def Instr.kind? : Instr → Option MsgKind
  | .poll _ => some .poll
  | .status _ => some .status
  | .statusClear _ => some .statusClear
  | .restart _ => some .restart
  | .clockSet .. => some .clockSet
  | .callOpen .. => some .callOpen
  | .boardStart .. => some .boardStart
  | .lastCall .. => some .lastCall
  | .castOff .. => some .castOff
  | .callCancel .. => some .callCancel
  | .callQuery .. => some .callQuery
  | .callCollect .. => some .callCollect
  | .aboardAdjust .. => some .aboardAdjust
  | .channelQuery .. => some .channelQuery
  | .channelService .. => some .channelService
  | .channelRelease .. => some .channelRelease
  | .channelRestore .. => some .channelRestore
  | .egressEnter .. => some .egressEnter
  | .egressClear .. => some .egressClear
  | .loadBegin .. => some .loadBegin
  | .loadSegment .. => some .loadSegment
  | .loadCommit .. => some .loadCommit
  | .loadAbort .. => some .loadAbort
  | .denyEdit .. => some .denyEdit
  | .tableQuery .. => some .tableQuery
  | .allotSet .. => some .allotSet
  | .allotRemove .. => some .allotRemove
  | .allotQuery .. => some .allotQuery
  | .referAnswer .. => some .referAnswer
  | .deskCheck .. => some .deskCheck
  | .settingsGet .. => some .settingsGet
  | .settingsSet .. => some .settingsSet
  | .settingsStore _ => some .settingsStore
  | .settingsReload _ => some .settingsReload
  | .settingsDefault _ => some .settingsDefault
  | .powerOn _ | .supplyDip | .supplyRecovered _ | .commandStartUp _ => none
  | .unknownKind _ | .broadcastIgnored _ | .busFrameDiscarded _ | .clockSecond | .storeWriteEnd _ => none
  | .present _ _ | .withdraw _ _ | .writeResult _ _ | .alive _ | .ready _ => none
  | .readerFrameDiscarded _ _ | .readerFrameSent _ | .attachTimerExpiry _ => none
  | .readerInactivityExpiry _ | .writeTimerExpiry _ | .validationCompletion => none
  | .referralTimerExpiry _ | .supervisionTimerExpiry | .loadInactivityExpiry => none
  | .dwellTimerExpiry _ | .lastCallTimerExpiry _ | .reportTimerExpiry | .passWindowExpiry _ => none
  | .suspensionTimerExpiry _ | .obstructionTimerExpiry _ | .minimumHoldExpiry => none
  | .beamEvent _ _ _ | .rampUnsafe _ | .rampSafe _ | .evacuateActive | .evacuateInactive => none
  | .busReplySent => none

/-- Whether a command is a request sent to broadcast (R173). -/
def Instr.isBroadcast : Instr → Bool
  | .clockSet dest _ _ _ | .egressEnter dest _ | .egressClear dest _ | .loadBegin dest _ _ _ _ _
  | .loadSegment dest _ _ _ | .loadCommit dest _ | .loadAbort dest _ | .denyEdit dest _ _ _ =>
    dest = .broadcast
  | _ => false

end Sys2Proof
end

