-- ==== Sys2Proof/Certificates/Slice0/Obligations.lean ====
section
/-! DEFINITION. The statements about the part, for the provers. A statement about one command or event is
about a state in which it has its own effect: it says that `exec` answers a next state and what that state
is. A state written `{ s with … }` says that everything not named is as before. -/

open Sys2Proof Sys2Proof.Machine

/-! ### The machine as a whole -/

/-- A step takes the command at the front of the queue and runs it with the queue's rest. -/
def Obligations.StepRunsFrontCommand : Prop :=
  ∀ (s : State) (c : Instr) (rest : List Instr),
    step { s with pending := c :: rest } = exec c { s with pending := rest }

/-- No command changes the queue of commands. -/
def Obligations.CommandsKeepQueue : Prop :=
  ∀ (i : Instr) (s t : State), exec i s = .next t → t.pending = s.pending

/-- With no command waiting, a running part counts one millisecond: its uptime and the phase of a SET clock go
on by one, every running timer counts down, the window of each live head whose channel is not SUSPENDED too,
the run-outs due join the queue, and nothing else changes; an inactive part does nothing. A run-out that finds
its timer stopped, or with time left, changes nothing. The model's choice (assumptions 3 and 7). -/
def Obligations.IdleStepIsOneMillisecond : Prop :=
  (∀ s : State, s.pending = [] →
    (s.power = .running → step s = .next { s with
      uptime := s.uptime + 1
      clockPhase := match s.clock with
        | none => s.clockPhase
        | some _ => if s.clockPhase < 999 then s.clockPhase + 1 else 0
      callTimers :=
        ⟨⟨countDown (s.timersOf .b0).dwell, countDown (s.timersOf .b0).lastCall⟩,
          ⟨countDown (s.timersOf .b1).dwell, countDown (s.timersOf .b1).lastCall⟩⟩
      reportTimer := countDown s.reportTimer
      claims := .of fun c => match (s.claimsOf c).live with
        | [] => s.claimsOf c
        | k :: ks => if (s.chan c).state = .suspended then s.claimsOf c
          else { s.claimsOf c with live := { k with window := k.window - 1 } :: ks }
      channels := .of fun c => { s.chan c with
        obstructionTimer := countDown (s.chan c).obstructionTimer
        suspensionTimer := countDown (s.chan c).suspensionTimer }
      ports := .of fun c => { s.port c with
        inactivity := countDown (s.port c).inactivity
        attach := countDown (s.port c).attach
        awaited := (s.port c).awaited.map fun w => { w with left := w.left - 1 } }
      engine := { s.engine with
        slot0 := s.engine.slot0.map fun r => { r with left := r.left - 1 }
        slot1 := s.engine.slot1.map fun r => { r with left := r.left - 1 } }
      bus := { s.bus with supervision := countDown s.bus.supervision }
      tables := { s.tables with load := s.tables.load.map fun l => { l with idle := l.idle - 1 } }
      egress := { s.egress with hold := countDown s.egress.hold }
      pending := s.firings }) ∧
    (s.power = .inactive → step s = .next s)) ∧
  ∀ (s : State) (b : Berth) (c : Chan) (j : Slot) (i : Instr) (timer : Timer), (i, timer) ∈
    [(Instr.dwellTimerExpiry b, (s.timersOf b).dwell), (.lastCallTimerExpiry b, (s.timersOf b).lastCall),
     (.reportTimerExpiry, s.reportTimer), (.readerInactivityExpiry c, (s.port c).inactivity),
     (.attachTimerExpiry c, (s.port c).attach),
     (.writeTimerExpiry c, (s.port c).awaited.map AwaitedWrite.left),
     (.passWindowExpiry c, (s.claimsOf c).live.head?.map Claim.window),
     (.suspensionTimerExpiry c, (s.chan c).suspensionTimer),
     (.obstructionTimerExpiry c, (s.chan c).obstructionTimer),
     (.referralTimerExpiry j, (s.slot j).map Referral.left), (.supervisionTimerExpiry, s.bus.supervision),
     (.loadInactivityExpiry, s.tables.load.map Load.idle), (.minimumHoldExpiry, s.egress.hold)] →
    timer ≠ some 0 → exec i s = .next s

/-- While the part holds itself inactive, no command but POWER_ON and SUPPLY_RECOVERED changes
anything. The model's deduction from R185 (assumption 24). -/
def Obligations.InactivePartTakesNothing : Prop :=
  ∀ (i : Instr) (s : State), s.power = .inactive →
    (∀ f, i ≠ .powerOn f) → (∀ f, i ≠ .supplyRecovered f) → exec i s = .next s

/-! ### What reset leaves -/

/-- The state right after reset meets every condition that a step keeps. -/
def Obligations.ResetIsSafe : Prop :=
  Safety.QueuesBounded State.reset ∧ Safety.ClaimsLimited State.reset ∧
  Safety.ClaimsUnpassed State.reset ∧ Safety.ClaimsOnBoarding State.reset ∧
  Safety.EgressEndsCalls State.reset ∧ Safety.AboardCounted State.reset ∧
  Safety.OverCapacityMarked State.reset ∧ Safety.TimersFollowCalls State.reset ∧
  Safety.ChannelsDerived State.reset ∧ Safety.FreeEngineIdle State.reset ∧
  Safety.PortsSound State.reset ∧ Safety.HeldOnce State.reset ∧
  Safety.AllotmentsBalanced State.reset ∧ Safety.VacantZeroed State.reset ∧
  Safety.CountersRun State.reset ∧ Safety.ClockInRange State.reset ∧
  Safety.SettingsInRange State.reset ∧ Safety.StoresCounted State.reset ∧ Safety.CountsBounded State.reset

/-! ### Conditions that every step keeps -/

/-- Every step keeps the queue and the journey list within their sizes, the counters off 0, every setting in
its range, the store write count within 10 000, the clock on a second of the day, and the counts of call
records and the tallies within their saturation. -/
def Obligations.RecordsStayInRange : Prop :=
  ∀ s t : State, step s = .next t →
    (Safety.QueuesBounded s → Safety.QueuesBounded t) ∧
    (Safety.CountersRun s → Safety.CountersRun t) ∧
    (Safety.SettingsInRange s → Safety.SettingsInRange t) ∧
    (Safety.StoresCounted s → Safety.StoresCounted t) ∧
    (Safety.ClockInRange s → Safety.ClockInRange t) ∧
    (Safety.CountsBounded s → Safety.CountsBounded t)

/-- Every step keeps each channel in its derived state, driving that state's lines, with its mode shown by
a reader that is UP. -/
def Obligations.ChannelsStayDerived : Prop :=
  ∀ s t : State, Safety.ChannelsDerived s → step s = .next t → Safety.ChannelsDerived t

/-- Every step keeps each channel within 3 claims, every claim with a seat still to pass, and every claim on
a call in BOARDING or LAST_CALL of its channel's berth. -/
def Obligations.ClaimsStaySound : Prop :=
  ∀ s t : State, step s = .next t →
    (Safety.ClaimsLimited s → Safety.ClaimsLimited t) ∧
    (Safety.ClaimsUnpassed s → Safety.ClaimsUnpassed t) ∧
    (Safety.ClaimsOnBoarding s → Safety.ClaimsOnBoarding t)

/-- Every step keeps egress free of open calls, the aboard figure from going below 0 with the counts within
their saturation, the dwell and last-call timers running in their states alone, and, given that claims stand
on boarding calls, VACANT records zeroed. -/
def Obligations.CallsStaySound : Prop :=
  ∀ s t : State, step s = .next t →
    (Safety.EgressEndsCalls s → Safety.EgressEndsCalls t) ∧
    (Safety.CountsBounded s → Safety.AboardCounted s → Safety.AboardCounted t) ∧
    (Safety.TimersFollowCalls s → Safety.TimersFollowCalls t) ∧
    (Safety.ClaimsOnBoarding s → Safety.VacantZeroed s → Safety.VacantZeroed t)

/-- Every step keeps a call that is over its capacity marked, given that claims stand on boarding calls and
still hold a seat, and that the counts lie within their saturation. -/
def Obligations.OverCapacityStaysMarked : Prop :=
  ∀ s t : State,
    Safety.ClaimsOnBoarding s → Safety.ClaimsUnpassed s → Safety.CountsBounded s →
    Safety.OverCapacityMarked s → step s = .next t → Safety.OverCapacityMarked t

/-- Every step keeps a FREE engine without an eligible presentation, given that claims stand on boarding
calls. Whatever command gives the engine work, given that each presentation is held at one place, it is the
eligible presentation that ranks first, by level, aging and fixed order, with its card, its line and the
tables and clock as they stand; it was pending before, or arrived with the command, and a channel's
presentations-taken tally rises. -/
def Obligations.FreeEngineStaysIdle : Prop :=
  (∀ s t : State, Safety.ClaimsOnBoarding s → Safety.FreeEngineIdle s → step s = .next t →
    Safety.FreeEngineIdle t) ∧
  ∀ (s t : State) (i : Instr) (w : Work), s.power = .running → Safety.HeldOnce s → exec i s = .next t →
    t.engine.work = some w → w.withdrawn = false → w.mark = .none →
    s.engine.work ≠ some w ∨ i = .validationCompletion →
    ∃ since, t.Took w since ∧
      (∀ c, w.requester = .channel c →
        ((∃ body, i = .present c body ∧ Card.parse body = some w.card ∧ since = s.uptime) ∨
          (∀ body, i ≠ .present c body) ∧ s.arbiter.places.get c = some ⟨w.card, since⟩) ∧
        (t.chan c).tallies.taken = min ((s.chan c).tallies.taken + 1) 65535) ∧
      ∀ line, w.requester = .desk line →
        (∃ body, i = .deskCheck line body ∧ Card.parse body = some w.card ∧ since = s.uptime) ∨
        (∀ n body, i ≠ .deskCheck n body) ∧ s.arbiter.desk = some ⟨w.card, line, since⟩

/-- Every step keeps presentations and awaited writes on lines that are UP, never both on one. -/
def Obligations.PortsStaySound : Prop :=
  ∀ s t : State, Safety.PortsSound s → step s = .next t → Safety.PortsSound t

/-- Every step keeps each outstanding presentation held at exactly one place. -/
def Obligations.PresentationsStayHeldOnce : Prop :=
  ∀ s t : State, Safety.HeldOnce s → step s = .next t → Safety.HeldOnce t

/-- Every step keeps the figures of every allotment in balance, given that claims still hold a seat. -/
def Obligations.AllotmentsStayBalanced : Prop :=
  ∀ s t : State, Safety.ClaimsUnpassed s → Safety.AllotmentsBalanced s → step s = .next t →
    Safety.AllotmentsBalanced t

/-! ### Formats -/

/-- A card whose fields fit their octets is read back from its octets. -/
def Obligations.CardRoundTrip : Prop :=
  ∀ k : Card, k.product < 256 →
    (∀ v, k.value = some v →
      -2147483648 ≤ v.balance ∧ v.balance < 2147483648 ∧ v.daily < 65536 ∧ v.day < 65536) →
    (∀ n, k.rides = some n → n < 256) →
    (∀ n, k.passEnd = some n → n < 65536) →
    (∀ l, k.last = some l →
      l.day < 65536 ∧ l.secs < 4294967296 ∧ l.line < 256 ∧ l.pier < 65536 ∧ l.fare < 65536 ∧
        l.tag < 65536) →
    Card.parse k.octets = some k

/-- A hunting receiver that takes the octets of a frame without a gap gives exactly that frame and hunts
again, on a reader line and on the bus; a frame whose CRC octets do not match, or whose length octet is
above 250, gives nothing on either. A gap of more than 5 ms inside a frame discards the octets taken, and
the octet after it is the first of hunting again. That octets reach the part as whole frames, and a gap as
an argument of the receiver, is the model's choice (assumption 8), and the CRC's bit order and final XOR are
presumed (assumption 36). -/
def Obligations.FramesAreReceived : Prop :=
  (∀ (sync : Bool) (address kind : Nat) (body : List Octet),
    address < 256 → kind < 256 → body.length ≤ 250 →
    Receiver.takeAll readerHead (.hunting sync) (readerFrame kind body) =
      (.hunting false, [octetsOf 1 kind ++ octetsOf 1 body.length ++ body]) ∧
    Receiver.takeAll busHead (.hunting sync) (busFrame address kind body) =
      (.hunting false, [octetsOf 1 address ++ octetsOf 1 kind ++ octetsOf 1 body.length ++ body])) ∧
  (∀ (kind length crc : Nat) (body : List Octet), kind < 256 → crc < 65536 →
    (body.length ≤ 250 → length = body.length →
      crc ≠ (crc16 (octetsOf 1 kind ++ octetsOf 1 length ++ body)).toNat →
      Receiver.takeAll readerHead (.hunting false)
        (syncPair ++ octetsOf 1 kind ++ octetsOf 1 length ++ body ++ octetsOf 2 crc) =
        (.hunting false, [])) ∧
    (250 < length → length < 256 →
      Receiver.takeAll readerHead (.hunting false) (syncPair ++ octetsOf 1 kind ++ octetsOf 1 length) =
        (.hunting false, [])) ∧
    ∀ address, address < 256 →
      (body.length ≤ 250 → length = body.length →
        crc ≠ (crc16 (octetsOf 1 address ++ octetsOf 1 kind ++ octetsOf 1 length ++ body)).toNat →
        Receiver.takeAll busHead (.hunting false)
          (syncPair ++ octetsOf 1 address ++ octetsOf 1 kind ++ octetsOf 1 length ++ body ++ octetsOf 2 crc) =
          (.hunting false, [])) ∧
      (250 < length → length < 256 →
        Receiver.takeAll busHead (.hunting false)
          (syncPair ++ octetsOf 1 address ++ octetsOf 1 kind ++ octetsOf 1 length) =
          (.hunting false, []))) ∧
  ∀ (head : Nat) (got : List Octet) (o : Octet),
    Receiver.take head (.receiving got) true o = (.hunting (decide (o = 0xA9#8)), none)

/-- Settings in their ranges are read back from the image the part makes of them. -/
def Obligations.SettingsImageRoundTrip : Prop :=
  ∀ k : Settings, k.InRange → loadImage (imageOf k) = some k

/-! ### Power, the bus and the clock -/

/-- POWER_ON, SUPPLY_RECOVERED after a dip and COMMAND_START_UP after a RESTART whose reply, or the reply
that displaced it, has gone out run the start-up: the working settings are those of the stored image, every
volatile block has its start-up value, the field lines are as found, RESTARTED is the first notice, the
restart mark and the 60 s window are set, and the store write count and the queue of commands are kept.
COMMAND_START_UP with no RESTART awaiting it, or with a reply still waiting, changes nothing. -/
def Obligations.StartUpStartsAfresh : Prop :=
  (∀ (s : State) (f : Found) (i : Instr) (cause : StartCause) (image : StoredImage),
    (i = .powerOn f ∧ cause = .powerOn ∨
      i = .supplyRecovered f ∧ cause = .supplyDip ∧ s.power = .inactive ∨
      i = .commandStartUp f ∧ cause = .command ∧ s.power = .running ∧ s.bus.restartAwaited = true ∧
        s.bus.reply = none) →
    (image = match s.settings.storing with
      | none => s.settings.image
      | some _ => f.tornImage) →
    ∃ t, exec i s = .next t ∧
      t.power = .running ∧ t.calls = .same .zeroed ∧ t.callTimers = .same .stopped ∧
      t.claims = .same .none ∧ t.ports = .same .atStart ∧ t.arbiter = .atStart ∧
      t.engine = .atStart ∧ t.tables = .atStart ∧ t.uptime = 0 ∧ t.clock = none ∧
      t.settings = {
        working := (loadImage image).getD .default
        image := image
        writeCount := s.settings.writeCount
        storing := none
        fault := (loadImage image).isNone } ∧
      t.reportTimer = (if t.cfg.countReportPeriod = 0 then none
        else some (t.cfg.countReportPeriod * 1000)) ∧
      t.bus.restartMark = some cause ∧ t.bus.silent = false ∧ t.bus.supervision = some 60000 ∧
      t.bus.reply = none ∧ t.bus.restartAwaited = false ∧
      (f.straps ≠ 0 → t.bus.address = f.straps.toNat ∧ t.bus.source = .straps) ∧
      (f.straps = 0 → t.bus.address = t.cfg.busAddress ∧ t.bus.source = .setting) ∧
      t.egress.active = f.evacuate ∧ t.egress.level = f.evacuate ∧ t.egress.latch = .same none ∧
      t.notices.dropped = false ∧
      t.notices.queue =
        (1, Notice.restarted cause t.settings.fault t.bus.address t.bus.source s.settings.writeCount) ::
          (if f.evacuate then
            [(2, .egressEntered .line (.of fun c => (some (t.cfg.posture.get c), 0, 0)))] else []) ∧
      t.notices.nextSeq = (if f.evacuate then 3 else 2) ∧
      (∀ c, (t.chan c).service = .inService ∧ (t.chan c).tallies = .zero ∧
        (t.chan c).obstructedAt = none ∧ (t.chan c).suspensionTimer = none ∧
        (t.chan c).limitReached = false ∧ (t.chan c).modeShown = none ∧
        (t.chan c).state = (if f.evacuate then .egressHeld else .outOfService) ∧
        (t.chan c).unlockIn = (f.evacuate && decide (t.cfg.posture.get c = .opened)) ∧
        (t.chan c).unlockOut = (f.evacuate && decide (t.cfg.posture.get c = .opened)) ∧
        (t.chan c).beamA = f.beamA.get c ∧ (t.chan c).beamB = f.beamB.get c ∧
        (t.chan c).rampSafe = f.rampSafe.get c ∧
        (t.chan c).tracker = (match f.beamA.get c, f.beamB.get c with
          | false, false => .clear
          | true, false => .outer
          | false, true => .inner
          | true, true => .spannedIn) ∧
        (t.chan c).obstructionTimer =
          (if f.beamA.get c = true ∨ f.beamB.get c = true then some 20000 else none)) ∧
      t.pending = s.pending) ∧
  ∀ (s : State) (f : Found), s.bus.restartAwaited = false ∨ s.bus.reply ≠ none →
    exec (.commandStartUp f) s = .next s

/-- SUPPLY_DIP makes a running part inactive: every unlock line drops, and no reply or record is left to
send; everything else is as before. That the volatile state of an inactive part stands is the model's
deduction from R185 (assumption 24). -/
def Obligations.SupplyDipGoesDark : Prop :=
  ∀ s : State, s.power = .running →
    ∃ t, exec .supplyDip s = .next t ∧
      t = { s with power := .inactive, bus := t.bus, channels := t.channels, ports := t.ports } ∧
      t.bus = { s.bus with receiver := .hunting false, reply := none } ∧
      (∀ c, t.chan c = { s.chan c with unlockIn := false, unlockOut := false }) ∧
      ∀ c, t.port c = { s.port c with receiver := .hunting false, sending := none, waiting := [] }

/-- STATUS, CALL_QUERY, CHANNEL_QUERY, TABLE_QUERY, ALLOT_QUERY and SETTINGS_GET answer OK with the figures
as they stand and change nothing but the bus port; a subject, a number or an id out of range is refused
BAD_FIELD. The STATUS frame has itself cleared SILENT, a version of 0 stands for no table, and the suspension
time left is rounded down (assumption 17). The model's choices: the hold time left in milliseconds
(assumption 32), no cause with a clear restart mark (assumption 35), and TARIFF with neither ACTIVE nor
PENDING as an unknown subject (assumption 37). -/
def Obligations.QueriesChangeNothing : Prop :=
  ∀ s : State, s.power = .running →
    exec (.status .fits) s =
      .next { s with bus := s.repliedBus .status .part .ok (.status {
        restartMark := s.bus.restartMark
        dropped := s.notices.dropped
        silent := false
        address := s.bus.address
        source := s.bus.source
        clock := s.clock
        uptime := s.uptime / 1000
        egressActive := s.egress.active
        byLine := s.egress.byLine
        byCommand := s.egress.byCommand
        evacuate := s.egress.level
        holdLeft := s.egress.hold
        pendingClear := s.egress.pendingClear
        productVersion := match s.tables.product with
          | none => 0
          | some t => t.version
        tariffVersion := match s.tables.active with
          | none => 0
          | some t => t.version
        denyVersion := s.tables.deny.version
        pendingTariff := s.tables.pendingTariff.map fun t => (t.version, t.effective)
        settingsFault := s.settings.fault
        storing := s.settings.storing.isSome
        writeCount := s.settings.writeCount
        notices := s.notices.queue.length
        referrals := (if s.slot .s0 = none then 0 else 1) + (if s.slot .s1 = none then 0 else 1) }) } ∧
    (∀ b : Berth, exec (.callQuery .fits b.num) s =
      .next { s with
        bus := s.repliedBus .callQuery .part .ok
          (.callRecord ⟨b, s.call b, s.held b, s.aboard b, s.headroom b⟩) }) ∧
    (∀ c : Chan, exec (.channelQuery .fits c.num) s =
      .next { s with bus := s.repliedBus .channelQuery .part .ok (.channel {
        channel := c
        berth := s.cfg.berthOf.get c
        level := s.cfg.level.get c
        state := (s.chan c).state
        unlockIn := (s.chan c).unlockIn
        unlockOut := (s.chan c).unlockOut
        service := (s.chan c).service
        line := (s.port c).line
        beamA := (s.chan c).beamA
        beamB := (s.chan c).beamB
        rampSafe := (s.chan c).rampSafe
        tracker := (s.chan c).tracker
        obstructed := (s.chan c).obstructedAt.isSome
        suspensionLeft := (s.chan c).suspensionTimer.map fun left => left / 1000
        limitReached := (s.chan c).limitReached
        posture := if (s.chan c).state ≠ .egressHeld then none else
          match s.egress.posture.get c, s.egress.latch.get c with
          | some p, _ => some (p, false)
          | none, some .opened => some (.opened, true)
          | none, some .closed => some (.closed, true)
          | none, none => none
        modeShown := (s.chan c).modeShown
        claims := (s.claimsOf c).live.map (fun k => ⟨true, k⟩) ++
          (s.claimsOf c).provisional.map (fun k => ⟨false, k⟩)
        tallies := (s.chan c).tallies }) }) ∧
    exec (.tableQuery .fits .summary) s =
      .next { s with bus := s.repliedBus .tableQuery .part .ok (.summary {
        productVersion := match s.tables.product with
          | none => 0
          | some t => t.version
        productCount := match s.tables.product with
          | none => 0
          | some t => t.entries.length
        tariffVersion := match s.tables.active with
          | none => 0
          | some t => t.version
        pendingTariff := s.tables.pendingTariff.map fun t => (t.version, t.effective)
        denyVersion := s.tables.deny.version
        denyCount := s.tables.deny.entries.length
        denyEdits := s.tables.deny.edits
        allotCount := s.tables.allot.length
        load := s.tables.load.map fun l => ⟨l.kind, l.version, l.count, l.next, l.broken⟩ }) } ∧
    (∀ id : CardId, id ≠ 0 → exec (.tableQuery .fits (.deny id)) s =
      .next { s with
        bus := s.repliedBus .tableQuery .part .ok
          (.deny (s.tables.deny.entries.find? fun e => e.id = id)) }) ∧
    (∀ n : Nat, 1 ≤ n → n ≤ 255 → exec (.tableQuery .fits (.product n)) s =
      .next { s with
        bus := s.repliedBus .tableQuery .part .ok
          (.product (s.tables.product.bind fun t => t.entries.find? fun e => e.number = n)) }) ∧
    exec (.tableQuery .fits (.tariff .active)) s =
      .next { s with bus := s.repliedBus .tableQuery .part .ok (.tariff s.tables.active) } ∧
    exec (.tableQuery .fits (.tariff .pending)) s =
      .next { s with bus := s.repliedBus .tableQuery .part .ok (.tariff s.tables.pendingTariff) } ∧
    (∀ n : Nat, n ≤ 15 → exec (.allotQuery .fits (.index n)) s =
      .next { s with
        bus := s.repliedBus .allotQuery .part .ok
          (.allotmentAt (s.tables.allot[n]?.map fun a => (a, a.stateAt s.clock, s.tables.allot.length))) }) ∧
    (∀ id : CardId, id ≠ 0 → exec (.allotQuery .fits (.token id)) s =
      .next { s with
        bus := s.repliedBus .allotQuery .part .ok
          (.allotmentAt ((s.tables.allot.find? fun a => a.token = id).map fun a =>
            (a, a.stateAt s.clock, s.tables.allot.length))) }) ∧
    exec (.settingsGet .fits 0) s =
      .next { s with bus := s.repliedBus .settingsGet .part .ok (.settings s.cfg.values) } ∧
    (∀ (n : Nat) (v : SettingValue), s.cfg.value? n = some v → exec (.settingsGet .fits n) s =
      .next { s with bus := s.repliedBus .settingsGet .part .ok (.settings [v]) }) ∧
    (∀ n, 3 < n → exec (.channelQuery .fits n) s = .next { s with
      bus := s.repliedBus .channelQuery .part .badField .empty }) ∧
    (∀ subject n, subject = .unknown ∨ subject = .deny 0 ∨ subject = .product n ∧ (n = 0 ∨ 255 < n) →
      exec (.tableQuery .fits subject) s = .next { s with
        bus := s.repliedBus .tableQuery .part .badField .empty }) ∧
    (∀ key n, key = .token 0 ∨ key = .index n ∧ 15 < n → exec (.allotQuery .fits key) s = .next { s with
      bus := s.repliedBus .allotQuery .part .badField .empty }) ∧
    ∀ n, 31 < n → exec (.settingsGet .fits n) s = .next { s with
      bus := s.repliedBus .settingsGet .part .badField .empty }

/-- CALL_QUERY with a berth other than 0 or 1 is refused BAD_FIELD, and with one of them is replied OK with
the record and its figures as they stand: zeroed where VACANT, and where ENDED what CALL_COLLECT would
answer. Nothing but the bus port changes. -/
def Obligations.CallQueryReportsTheRecord : Prop :=
  ∀ (s : State) (n : Nat), s.power = .running →
    ∃ t, exec (.callQuery .fits n) s = .next t ∧ t = { s with bus := t.bus } ∧
      (1 < n → t.bus.reply = some ⟨s.bus.address, 0x96, .badField, .empty⟩) ∧
      ∀ b : Berth, n = b.num → ∃ r : CallReport,
        t.bus.reply = some ⟨s.bus.address, 0x96, .ok, .callRecord r⟩ ∧
        r = ⟨b, s.call b, s.held b,
          (s.call b).declared + (s.call b).boarded.sum - (s.call b).alighted,
          (s.call b).capacity - ((s.call b).declared + (s.call b).boarded.sum - (s.call b).alighted) -
            s.held b⟩ ∧
        (Safety.VacantZeroed s → (s.call b).state = .vacant → r.call = .zeroed) ∧
        ((s.call b).state = .ended → (s.call b).vessel ≠ 0 →
          ∃ u, exec (.callCollect .fits n (s.call b).vessel) s = .next u ∧
            u.bus.reply = some ⟨s.bus.address, 0x97, .ok, .callRecord r⟩)

/-- POLL delivers the held referrals not yet delivered, in order of raising, then queued notices from the
oldest on. It stops taking notices only at 8 items in all, at the end of the queue, or at the first notice
that would take the body beyond 250 octets by the lengths of the layout. What it takes leaves the queue, and
nothing else does. The lengths are a free value (assumption 4), and `slot1Older` is the model's mark of the
order of raising (assumption 12). -/
def Obligations.PollTakesTheOldest : Prop :=
  ∀ s : State, s.power = .running →
    ∀ (item : Slot → List PollItem) (referrals : List PollItem) (octets : Nat → Nat),
      (item = fun i => match s.slot i with
        | none => []
        | some r => if r.delivered then [] else
          [.referral ⟨r.id, r.channel, r.berth, (s.call r.berth).vessel, r.card.id, r.card.product, r.cause⟩]) →
      (referrals = if s.engine.slot1Older then item .s1 ++ item .s0 else item .s0 ++ item .s1) →
      (octets = fun code => 4 + s.layout.contents.getD code 0) →
      ∃ t taken, exec (.poll .fits) s = .next t ∧
        s.notices.queue = taken ++ t.notices.queue ∧
        referrals.length + taken.length ≤ 8 ∧
        (∀ size : List (Nat × Notice) → Nat,
          (size = fun ns => s.layout.pollHead + referrals.length * octets 0x13 +
            (ns.map fun n => octets n.2.code).sum) →
          (taken = [] ∨ size taken ≤ 250) ∧
          (referrals.length + taken.length = 8 ∨ t.notices.queue = [] ∨
            ∃ n ns, t.notices.queue = n :: ns ∧ 250 < size (taken ++ [n]))) ∧
        t = { s with
          bus := s.repliedBus .poll .part .ok
            (.polled s.notices.dropped t.notices.queue.length (referrals.length + taken.length)
              (referrals ++ taken.map fun n => .notice n.1 n.2))
          notices := { s.notices with queue := t.notices.queue }
          engine := { s.engine with
            slot0 := s.engine.slot0.map fun r => { r with delivered := true }
            slot1 := s.engine.slot1.map fun r => { r with delivered := true } } }

/-- The bus port's own part: STATUS_CLEAR clears both marks and answers with them; RESTART outside a settings
store is awaited, and during one is refused STORING; a wrong length is refused BAD_LENGTH and an unknown kind
UNKNOWN_KIND with no other effect; an ignored broadcast and a frame of the part's own address whose kind has
80h set only restart supervision; a damaged frame and one for another address do not; the reply waiting
begins to go out. That the cause goes with the restart mark is the model's choice (assumption 35). -/
def Obligations.BusPortTakesFrames : Prop :=
  ∀ (s : State) (kind v n m p q r : Nat) (d : Int), s.power = .running →
    exec (.statusClear .fits) s = .next { s with
      bus := { s.repliedBus .statusClear .part .ok (.marks s.bus.restartMark s.notices.dropped) with
        restartMark := none }
      notices := { s.notices with dropped := false } } ∧
    (s.settings.storing = none → exec (.restart .fits) s = .next { s with
      bus := { s.repliedBus .restart .part .ok .empty with restartAwaited := true } }) ∧
    (s.settings.storing ≠ none → exec (.restart .fits) s = .next { s with
      bus := s.repliedBus .restart .part .storing .empty }) ∧
    (exec (.unknownKind kind) s = .next { s with
      bus := { s.bus with
        receiver := .hunting false
        supervision := some (s.cfg.supervisionPeriod * 1000)
        period := s.cfg.supervisionPeriod
        silent := false
        reply := some ⟨s.bus.address, kind + 0x80, .unknownKind, .empty⟩ } } ∧
    (∀ i, i = .broadcastIgnored kind ∨ i = .busFrameDiscarded .foreignReply → exec i s = .next { s with
      bus := { s.bus with
        receiver := .hunting false
        supervision := some (s.cfg.supervisionPeriod * 1000)
        period := s.cfg.supervisionPeriod
        silent := false } }) ∧
    (∀ why, why = .damaged ∨ why = .otherAddress → exec (.busFrameDiscarded why) s = .next { s with
      bus := { s.bus with receiver := .hunting false } }) ∧
    ∀ waiting, s.bus.reply = some waiting →
      exec .busReplySent s = .next { s with bus := { s.bus with reply := none, sent := some waiting } }) ∧
    (∀ (i : Instr) (k : MsgKind), (i, k) ∈
      [(.poll .wrong, .poll), (.status .wrong, .status), (.statusClear .wrong, .statusClear),
       (.restart .wrong, .restart), (.callOpen .wrong n v m p q r, .callOpen),
       (.boardStart .wrong n v, .boardStart), (.lastCall .wrong n v, .lastCall),
       (.castOff .wrong n v, .castOff), (.callCancel .wrong n v, .callCancel),
       (.callCollect .wrong n v, .callCollect), (.callQuery .wrong n, .callQuery),
       (.aboardAdjust .wrong n v d, .aboardAdjust), (.channelQuery .wrong n, .channelQuery),
       (.egressEnter .part .wrong, .egressEnter), (.egressClear .part .wrong, .egressClear),
       (.loadCommit .part .wrong, .loadCommit), (.settingsStore .wrong, .settingsStore)] →
      exec i s = .next { s with bus := s.repliedBus k .part .badLength .empty }) ∧
    ∀ (dest : Dest) (flag : Option ServiceFlag) (force : Option Bool) (target : RestoreTarget)
      (load : Option LoadKind) (crc : BitVec 16) (subject : Subject) (token : CardId) (expiry : Option ClockTime)
      (key : AllotKey) (verdict : Option AnswerVerdict) (value : SettingValue) (i : Instr) (k : MsgKind)
      (whom : Dest), (i, k, whom) ∈
      [(.clockSet dest .wrong n v, .clockSet, dest), (.channelService .wrong n flag, .channelService, .part),
       (.channelRelease .wrong n force, .channelRelease, .part),
       (.channelRestore .wrong target, .channelRestore, .part), (.egressEnter dest .wrong, .egressEnter, dest),
       (.egressClear dest .wrong, .egressClear, dest), (.loadBegin dest .wrong load n v crc, .loadBegin, dest),
       (.loadCommit dest .wrong, .loadCommit, dest), (.loadAbort dest .wrong, .loadAbort, dest),
       (.tableQuery .wrong subject, .tableQuery, .part),
       (.allotSet .wrong token n m p expiry, .allotSet, .part), (.allotRemove .wrong token, .allotRemove, .part),
       (.allotQuery .wrong key, .allotQuery, .part), (.referAnswer .wrong n verdict m p, .referAnswer, .part),
       (.settingsGet .wrong n, .settingsGet, .part), (.settingsSet .wrong n value, .settingsSet, .part),
       (.settingsReload .wrong, .settingsReload, .part), (.settingsDefault .wrong, .settingsDefault, .part)] →
      exec i s = .next { s with bus := s.repliedBus k whom .badLength .empty }

/-- CLOCK_SET with seconds of a day, to the part or broadcast, sets the clock and answers the reading
before; CLOCK_SECOND advances a clock that is SET by one second, from the last second of a day to the next
day and from the last day to day 0; while the clock is UNSET it changes nothing. Seconds above 86399 are
refused BAD_FIELD. At either a pending tariff whose effective time is reached becomes active, and nothing
else changes. That CLOCK_SET begins a second of the clock anew, `clockPhase` 0, is the model's choice
(assumption 3). -/
def Obligations.ClockMoves : Prop :=
  (∀ (s : State) (dest : Dest) (day secs : Nat), s.power = .running → secs ≤ 86399 →
    ∃ t, exec (.clockSet dest .fits day secs) s = .next t ∧
      (s.tables.pendingTariff = none ∨
          (∃ p, s.tables.pendingTariff = some p ∧
            (day < p.effective.day ∨ day = p.effective.day ∧ secs < p.effective.secs)) →
        t = { s with
          bus := s.repliedBus .clockSet dest .ok (.clockWas s.clock)
          clock := some ⟨day, secs⟩
          clockPhase := 0 }) ∧
      ∀ p, s.tables.pendingTariff = some p →
        ¬(day < p.effective.day ∨ day = p.effective.day ∧ secs < p.effective.secs) →
        t = { s with
          bus := s.repliedBus .clockSet dest .ok (.clockWas s.clock)
          clock := some ⟨day, secs⟩
          clockPhase := 0
          tables := { s.tables with active := some p, pendingTariff := none }
          notices := t.notices } ∧
        s.QueuesFirst t (.tariffActive p.version p.effective (s.tables.active.map Tariff.version) .clockSet)) ∧
  (∀ (s : State) (dest : Dest) (day secs : Nat), s.power = .running → 86399 < secs →
    exec (.clockSet dest .fits day secs) s = .next { s with
      bus := s.repliedBus .clockSet dest .badField .empty }) ∧
  (∀ s : State, s.power = .running → s.clock = none → exec .clockSecond s = .next s) ∧
  ∀ (s : State) (day secs : Nat), s.power = .running → s.clock = some ⟨day, secs⟩ → day ≤ 65535 →
    secs ≤ 86399 →
    ∃ t now, exec .clockSecond s = .next t ∧ t.clock = some now ∧
      (secs < 86399 → now = ⟨day, secs + 1⟩) ∧
      (secs = 86399 → now.secs = 0 ∧ now.day = if day = 65535 then 0 else day + 1) ∧
      (s.tables.pendingTariff = none → t = { s with clock := some now }) ∧
      ∀ p, s.tables.pendingTariff = some p →
        (now.day < p.effective.day ∨ now.day = p.effective.day ∧ now.secs < p.effective.secs →
          t = { s with clock := some now }) ∧
        (¬(now.day < p.effective.day ∨ now.day = p.effective.day ∧ now.secs < p.effective.secs) →
          t = { s with
            clock := some now
            tables := { s.tables with active := some p, pendingTariff := none }
            notices := t.notices } ∧
          s.QueuesFirst t (.tariffActive p.version p.effective (s.tables.active.map Tariff.version)
            .clock))

/-! ### Calls -/

/-- The five state messages and CALL_COLLECT's tests: a berth other than 0 or 1, or vessel number 0, is
refused BAD_FIELD; then a record whose state does not accept the message, or whose vessel number differs, is
refused WRONG_STATE. A refusal changes only the bus port. An accepted one is replied OK with the berth and the
state entered, and CALL_COLLECT with the record as it stood. -/
def Obligations.StateMessagesAreTested : Prop :=
  ∀ (s : State) (n v : Nat), s.power = .running →
    ∀ (i : Instr) (k : MsgKind) (accepts : CallState → Bool), (i, k, accepts) ∈
      [(Instr.boardStart .fits n v, MsgKind.boardStart, fun st => decide (st = .alongside)),
       (.lastCall .fits n v, .lastCall, fun st => decide (st = .boarding)),
       (.castOff .fits n v, .castOff, CallState.isOpen),
       (.callCancel .fits n v, .callCancel, CallState.isOpen),
       (.callCollect .fits n v, .callCollect, fun st => decide (st = .ended))] →
      (1 < n ∨ v = 0 → exec i s = .next { s with bus := s.repliedBus k .part .badField .empty }) ∧
      ∀ b : Berth, n = b.num → v ≠ 0 →
        (accepts (s.call b).state = false ∨ (s.call b).vessel ≠ v →
          exec i s = .next { s with bus := s.repliedBus k .part .wrongState .empty }) ∧
        (accepts (s.call b).state = true → (s.call b).vessel = v →
          ∃ t, exec i s = .next t ∧ ∃ r, t.bus.reply = some r ∧ r.code = .ok ∧
            (k ≠ .callCollect → r.body = .entered b (t.call b).state) ∧
            (k = .callCollect → r.body = .callRecord ⟨b, s.call b, s.held b, s.aboard b, s.headroom b⟩))

/-- CALL_OPEN with a field out of its range is refused BAD_FIELD; with its fields in range it is refused
WRONG_STATE while egress is active or the record is not VACANT, and else enters ALONGSIDE: the record has the
values carried and every count at 0, CALL_STATE is queued, then OVER_CAPACITY where the mark is set, and the
reply is OK. A refusal changes only the bus port. -/
def Obligations.CallOpenEntersAlongside : Prop :=
  ∀ (s : State) (n v line capacity declared dwell : Nat), s.power = .running →
    (1 < n ∨ v < 1 ∨ 65535 < v ∨ line < 1 ∨ 63 < line ∨ capacity < 1 ∨ 999 < capacity ∨ 999 < declared ∨
        dwell < 30 ∨ 900 < dwell →
      exec (.callOpen .fits n v line capacity declared dwell) s = .next { s with
        bus := s.repliedBus .callOpen .part .badField .empty }) ∧
    ∀ b : Berth, n = b.num → 1 ≤ v → v ≤ 65535 → 1 ≤ line → line ≤ 63 → 1 ≤ capacity → capacity ≤ 999 →
      declared ≤ 999 → 30 ≤ dwell → dwell ≤ 900 →
      (s.egress.active = true ∨ (s.call b).state ≠ .vacant →
        exec (.callOpen .fits n v line capacity declared dwell) s = .next { s with
          bus := s.repliedBus .callOpen .part .wrongState .empty }) ∧
      (s.egress.active = false → (s.call b).state = .vacant →
        ∃ t, exec (.callOpen .fits n v line capacity declared dwell) s = .next t ∧
          t = { s with
            bus := s.repliedBus .callOpen .part .ok (.entered b .alongside)
            calls := s.calls.set b { Call.zeroed with
              state := .alongside
              vessel := v
              line := line
              capacity := capacity
              declared := declared
              overCapacity := decide (capacity < declared)
              dwellLimit := dwell
              opened := s.stamp }
            notices := t.notices
            arbiter := t.arbiter
            channels := t.channels
            ports := t.ports } ∧
          s.ChannelsFollow t ∧
          s.QueuesFirst t (.callState b v .vacant .alongside .command .none declared
            (capacity - declared - s.held b)) ∧
          (capacity < declared → s.QueuesInOrder t
            [.callState b v .vacant .alongside .command .none declared (capacity - declared - s.held b),
             .overCapacity b v .opened capacity declared (s.held b)]))

/-- BOARD_START for a call ALONGSIDE enters BOARDING and starts the dwell timer with the record's limit. -/
def Obligations.BoardStartEntersBoarding : Prop :=
  ∀ (s : State) (b : Berth), s.power = .running → (s.call b).state = .alongside →
    (s.call b).vessel ≠ 0 →
    ∃ t, exec (.boardStart .fits b.num (s.call b).vessel) s = .next t ∧
      t = { s with
        bus := s.repliedBus .boardStart .part .ok (.entered b .boarding)
        calls := s.calls.set b { s.call b with state := .boarding, boardingStarted := s.stamp }
        callTimers := s.callTimers.set b
          ⟨some ((s.call b).dwellLimit * 1000), (s.timersOf b).lastCall⟩
        notices := t.notices
        arbiter := t.arbiter
        channels := t.channels
        ports := t.ports } ∧
      s.ChannelsFollow t ∧
      s.QueuesFirst t (.callState b (s.call b).vessel .alongside .boarding .command .none (s.aboard b)
        (s.headroom b))

/-- The LAST_CALL message, and the dwell timer's run-out, take a call from BOARDING to LAST_CALL: the dwell
timer stops, the last-call timer starts, and the pending presentations of the berth's channels at or below
LAST_CALL_LEVEL are refused. -/
def Obligations.LastCallIsEntered : Prop :=
  ∀ (s : State) (b : Berth) (i : Instr) (bus : Bus) (cause : CallCause), s.power = .running →
    (s.call b).state = .boarding →
    (i = .lastCall .fits b.num (s.call b).vessel ∧ (s.call b).vessel ≠ 0 ∧ cause = .command ∧
        bus = s.repliedBus .lastCall .part .ok (.entered b .lastCall) ∨
      i = .dwellTimerExpiry b ∧ (s.timersOf b).dwell = some 0 ∧ cause = .timed ∧ bus = s.bus) →
    ∃ t, exec i s = .next t ∧
      t = { s with
        bus := bus
        calls := s.calls.set b { s.call b with state := .lastCall, lastCallAt := s.stamp }
        callTimers := s.callTimers.set b ⟨none, some (s.cfg.lastCallLimit * 1000)⟩
        notices := t.notices
        arbiter := t.arbiter
        channels := t.channels
        ports := t.ports } ∧
      s.ChannelsFollow t ∧
      (∀ c, s.berthOf c = some b → s.cfg.level.get c ≤ s.cfg.lastCallLevel →
        t.arbiter.places.get c = none) ∧
      s.QueuesFirst t (.callState b (s.call b).vessel .boarding .lastCall cause .none (s.aboard b)
        (s.headroom b))

/-- CAST_OFF, CALL_CANCEL and the last-call timer's run-out end an open call: the record is ENDED with its
reason and time, its timers stop, every claim on it ends and no other, its allotments take back the unpassed
seats, the journey entries of its live claims take the outcome of a lapse and its provisional claims each
leave an UNCERTAIN entry, channel 0 to channel 3, the pending presentations of its channels are refused, and
the referral slots that hold its cases fall empty. Of two entries of a card with one write tag the newest
takes the outcome (assumption 19). -/
def Obligations.CallsEnd : Prop :=
  ∀ (s : State) (b : Berth) (i : Instr) (bus : Bus) (reason : EndReason) (cause : CallCause),
    s.power = .running →
    (i = .castOff .fits b.num (s.call b).vessel ∧ (s.call b).vessel ≠ 0 ∧ cause = .command ∧
        (s.call b).state.isOpen = true ∧ reason = .castOff ∧
        bus = s.repliedBus .castOff .part .ok (.entered b .ended) ∨
      i = .callCancel .fits b.num (s.call b).vessel ∧ (s.call b).vessel ≠ 0 ∧ cause = .command ∧
        (s.call b).state.isOpen = true ∧ reason = .cancelled ∧
        bus = s.repliedBus .callCancel .part .ok (.entered b .ended) ∨
      i = .lastCallTimerExpiry b ∧ (s.timersOf b).lastCall = some 0 ∧ (s.call b).state = .lastCall ∧
        cause = .timed ∧ reason = .timed ∧ bus = s.bus) →
    ∃ t, exec i s = .next t ∧
      t = { s with
        bus := bus
        calls := s.calls.set b { s.call b with
          state := .ended
          endReason := reason
          endedAt := s.stamp }
        callTimers := s.callTimers.set b .stopped
        claims := t.claims
        tables := { s.tables with
          allot := Chan.all.foldl (s.allotEnded fun k => k.berth = b) s.tables.allot }
        engine := { s.engine with
          work := t.engine.work
          journey := Chan.all.foldl (s.journeyEnded fun k => k.berth = b) s.engine.journey
          slot0 := t.engine.slot0
          slot1 := t.engine.slot1 }
        notices := t.notices
        arbiter := t.arbiter
        channels := t.channels
        ports := t.ports } ∧
      s.ChannelsFollow t ∧
      (∀ c, t.claimsOf c = ⟨(s.claimsOf c).live.filter (fun k => k.berth ≠ b),
        (s.claimsOf c).provisional.filter fun k => k.berth ≠ b⟩) ∧
      (∀ c, s.berthOf c = some b → t.arbiter.places.get c = none) ∧
      (∀ j, t.slot j = match s.slot j with
        | some r => if r.berth = b then none else some r
        | none => none) ∧
      (∀ w, s.engine.work = some w → t.engine.work = some (match w.requester with
        | .channel c => if s.berthOf c = some b then { w with mark := .notBoarding } else w
        | .desk _ => w)) ∧
      s.QueuesFirst t (.callState b (s.call b).vessel (s.call b).state .ended cause reason (s.aboard b)
        ((s.call b).capacity - s.aboard b))

/-- CALL_COLLECT of an ENDED call answers with its record as it stands and leaves the berth's record zeroed
and VACANT, with CALL_STATE queued under the call's vessel number; its channels keep CLOSED. In any other
state it is refused WRONG_STATE and nothing but the bus port changes. -/
def Obligations.CallCollectZeroesTheRecord : Prop :=
  ∀ (s : State) (b : Berth), s.power = .running → (s.call b).vessel ≠ 0 →
    ((s.call b).state = .ended →
      ∃ t, exec (.callCollect .fits b.num (s.call b).vessel) s = .next t ∧
        t = { s with
          bus := s.repliedBus .callCollect .part .ok
            (.callRecord ⟨b, s.call b, s.held b, s.aboard b, s.headroom b⟩)
          calls := s.calls.set b .zeroed
          notices := t.notices
          arbiter := t.arbiter
          channels := t.channels
          ports := t.ports } ∧
        s.ChannelsFollow t ∧
        (Safety.ChannelsDerived s → ∀ c, s.berthOf c = some b → (s.chan c).state = .closed →
          (t.chan c).state = .closed) ∧
        s.QueuesFirst t (.callState b (s.call b).vessel .ended .vacant .command .none 0 0)) ∧
    ((s.call b).state ≠ .ended → exec (.callCollect .fits b.num (s.call b).vessel) s = .next { s with
      bus := s.repliedBus .callCollect .part .wrongState .empty })

/-- ABOARD_ADJUST of an open call: the declared figure takes the delta within 0..999, alightings above what
is then aboard go to excess, a delta above 0 may set the over-capacity mark, and nothing else of the record
changes. OVER_CAPACITY is queued where the mark was set, then HEADROOM where the headroom crossed between 0
and above 0. It is refused BAD_FIELD with a field out of range, then WRONG_STATE where no call is open or
the vessel number differs, and a refusal changes only the bus port. -/
def Obligations.AboardAdjustAdjusts : Prop :=
  ∀ (s : State) (n v : Nat) (delta : Int), s.power = .running →
    (1 < n ∨ v = 0 ∨ delta < -999 ∨ 999 < delta →
      exec (.aboardAdjust .fits n v delta) s = .next { s with
        bus := s.repliedBus .aboardAdjust .part .badField .empty }) ∧
    ∀ b : Berth, n = b.num → v ≠ 0 → -999 ≤ delta → delta ≤ 999 →
      ((s.call b).state.isOpen = false ∨ (s.call b).vessel ≠ v →
        exec (.aboardAdjust .fits n v delta) s = .next { s with
          bus := s.repliedBus .aboardAdjust .part .wrongState .empty }) ∧
      ((s.call b).state.isOpen = true → (s.call b).vessel = v →
        ∃ (t : State) (k : Call), exec (.aboardAdjust .fits n v delta) s = .next t ∧
          t.call b = k ∧
          t = { s with
            bus := s.repliedBus .aboardAdjust .part .ok (.adjusted b k.declared k.alighted k.excess
              (k.declared + k.boarded.sum - k.alighted) (s.held b)
              (k.capacity - (k.declared + k.boarded.sum - k.alighted) - s.held b) k.overCapacity)
            calls := s.calls.set b k
            notices := t.notices
            arbiter := t.arbiter
            channels := t.channels
            ports := t.ports } ∧
          s.ChannelsFollow t ∧
          (k.declared : Int) = min 999 (max 0 ((s.call b).declared + delta)) ∧
          k.alighted = min (s.call b).alighted (k.declared + k.boarded.sum) ∧
          k.excess = (if k.declared + k.boarded.sum < (s.call b).alighted then
            min ((s.call b).excess + ((s.call b).alighted - (k.declared + k.boarded.sum))) 65535
            else (s.call b).excess) ∧
          k.overCapacity = ((s.call b).overCapacity || (decide (0 < delta) &&
            decide (k.capacity < k.declared + k.boarded.sum - k.alighted + s.held b))) ∧
          k = { s.call b with
            declared := k.declared
            alighted := k.alighted
            excess := k.excess
            overCapacity := k.overCapacity } ∧
          s.QueuesInOrder t
            ((if k.overCapacity = true ∧ (s.call b).overCapacity = false then
              [.overCapacity b v .adjust k.capacity (k.declared + k.boarded.sum - k.alighted) (s.held b)] else []) ++
            (if s.headroom b = 0 ∧ 0 < t.headroom b ∨ 0 < s.headroom b ∧ t.headroom b = 0 then
              [.headroom b v (decide (0 < t.headroom b)) (t.headroom b)] else [])))

/-- The report timer's run-out with the setting above 0 queues a COUNT_REPORT for each open call, berth 0
first, and restarts the timer; with the setting 0 it stops the timer and queues nothing. The obstruction
timer's run-out sets the flag with the uptime and reports the beams broken. With 32 notices in the queue a
notice is discarded: it takes no sequence number and sets the dropped mark. -/
def Obligations.TimersThatReport : Prop :=
  (∀ s : State, s.power = .running → s.reportTimer = some 0 → ∀ report : Berth → Notice,
    (report = fun b => .countReport b (s.call b).vessel (s.call b).state (s.call b).boarded (s.call b).alighted
      (s.call b).excess (s.call b).declared (s.aboard b) (s.held b) (s.headroom b) (s.call b).overCapacity) →
    (s.cfg.countReportPeriod = 0 → exec .reportTimerExpiry s = .next { s with reportTimer := none }) ∧
    (0 < s.cfg.countReportPeriod → ∃ t, exec .reportTimerExpiry s = .next t ∧
      t = { s with reportTimer := some (s.cfg.countReportPeriod * 1000), notices := t.notices } ∧
      ((∀ b, (s.call b).state.isOpen = false) → t.notices = s.notices)) ∧
    ∀ b, 0 < s.cfg.countReportPeriod → (s.call b).state.isOpen = true →
      (b = .b1 → (s.call .b0).state.isOpen = false) →
      ∃ t, exec .reportTimerExpiry s = .next t ∧ s.QueuesFirst t (report b) ∧
        (b = .b0 → (s.call .b1).state.isOpen = true → s.notices.queue.length + 1 < 32 →
          t.notices.queue = s.notices.queue ++
            [(s.notices.nextSeq, report .b0),
             (if s.notices.nextSeq = 65535 then 1 else s.notices.nextSeq + 1, report .b1)])) ∧
  ∀ (s : State) (c : Chan), s.power = .running → (s.chan c).obstructionTimer = some 0 →
    ∃ t, exec (.obstructionTimerExpiry c) s = .next t ∧
      t = { s with
        channels := s.channels.set c { s.chan c with
          obstructionTimer := none
          obstructedAt := some s.uptime }
        notices := t.notices } ∧
      s.QueuesFirst t (.obstructedSet c (s.chan c).beamA (s.chan c).beamB)

/-! ### Channels and passages -/

/-- CHANNEL_SERVICE sets the channel's service flag; set to OUT it refuses the pending presentation, and a
flag set to the value it has changes nothing. A change of a channel's state or lines queues CHANNEL_STATE,
with the states and the line levels. A channel out of range, or a value other than IN and OUT, is refused
BAD_FIELD. -/
def Obligations.ChannelServiceSetsTheFlag : Prop :=
  ∀ s : State, s.power = .running →
    (∀ (n : Nat) (value : Option ServiceFlag), 3 < n ∨ value = none →
      exec (.channelService .fits n value) s = .next { s with
        bus := s.repliedBus .channelService .part .badField .empty }) ∧
    ∀ (c : Chan) (flag : ServiceFlag),
      ∃ t, exec (.channelService .fits c.num (some flag)) s = .next t ∧
        t = { s with
          bus := s.repliedBus .channelService .part .ok (.service c flag (t.chan c).state)
          notices := t.notices
          arbiter := t.arbiter
          channels := t.channels
          ports := t.ports } ∧
        (s.setChan c { s.chan c with service := flag }).ChannelsFollow t ∧
        s.QueuesInOrder t (s.channelNotices t) ∧
        ((s.chan c).service ≠ flag → flag = .outOfService → t.arbiter.places.get c = none) ∧
        ((s.chan c).service = flag →
          t.channels = s.channels ∧ t.ports = s.ports ∧ t.arbiter = s.arbiter ∧ t.notices = s.notices)

/-- CHANNEL_RELEASE, with its tests met, adds one STAFF claim of one seat at the tail of the channel's live
queue, as head with a full window where the queue was empty; a forced release beyond the headroom sets the
over-capacity mark. OVER_CAPACITY is queued where the mark was set, then HEADROOM where the seat took the
headroom to 0. It is refused BAD_FIELD with a channel or a marker out of range, then WRONG_STATE during
egress, without a boarding call at its berth, SUSPENDED, EGRESS_HELD or with 3 claims, then, not forced,
NO_ROOM. -/
def Obligations.ChannelReleaseGrantsAStaffSeat : Prop :=
  ∀ s : State, s.power = .running →
    (∀ (n : Nat) (force : Option Bool), 3 < n ∨ force = none →
      exec (.channelRelease .fits n force) s = .next { s with
        bus := s.repliedBus .channelRelease .part .badField .empty }) ∧
    ∀ (c : Chan) (force : Bool),
      (s.egress.active = true ∨ (∀ b, s.berthOf c = some b → (s.call b).state.isBoarding = false) ∨
          (s.chan c).state = .suspended ∨ (s.chan c).state = .egressHeld ∨ 3 ≤ (s.claimsOf c).count →
        exec (.channelRelease .fits c.num (some force)) s = .next { s with
          bus := s.repliedBus .channelRelease .part .wrongState .empty }) ∧
      ∀ b, s.egress.active = false → s.berthOf c = some b → (s.call b).state.isBoarding = true →
        (s.chan c).state ≠ .suspended → (s.chan c).state ≠ .egressHeld → (s.claimsOf c).count < 3 →
        (force = false → s.headroom b = 0 →
          exec (.channelRelease .fits c.num (some force)) s = .next { s with
            bus := s.repliedBus .channelRelease .part .noRoom .empty }) ∧
        ((force = true ∨ 0 < s.headroom b) →
          ∃ (t : State) (k : Call), exec (.channelRelease .fits c.num (some force)) s = .next t ∧
            t = { s with
              bus := s.repliedBus .channelRelease .part .ok
                (.released c b (t.headroom b) (s.claimsOf c).live.length k.overCapacity)
              calls := s.calls.set b k
              claims := s.claims.set c { s.claimsOf c with
                live := (s.claimsOf c).live ++ [⟨b, .staff, 1, 0, none, 0, none, none, s.uptimeSecs,
                  if (s.claimsOf c).live = [] then s.cfg.passWindow.get c * 1000 else 0⟩] }
              notices := t.notices
              arbiter := t.arbiter
              channels := t.channels
              ports := t.ports } ∧
            s.ChannelsFollow t ∧
            k = { s.call b with overCapacity := (s.call b).overCapacity ||
              (force && decide ((s.call b).capacity < s.aboard b + s.held b + 1)) } ∧
            s.QueuesInOrder t
              ((if k.overCapacity = true ∧ (s.call b).overCapacity = false then
                [.overCapacity b k.vessel .staff k.capacity (s.aboard b) (s.held b + 1)] else []) ++
              (if s.headroom b = 1 then [.headroom b k.vessel false 0] else [])))

/-- CHANNEL_RESTORE of one channel, or of all, releases the latched postures named and answers which were
latched; while egress is active either is refused WRONG_STATE, and a channel out of range BAD_FIELD. -/
def Obligations.ChannelRestoreReleasesLatches : Prop :=
  ∀ s : State, s.power = .running →
    (∀ n, 3 < n → exec (.channelRestore .fits (.one n)) s =
      .next { s with bus := s.repliedBus .channelRestore .part .badField .empty }) ∧
    (s.egress.active = true → ∀ target, target = .all ∨ (∃ c : Chan, target = .one c.num) →
      exec (.channelRestore .fits target) s =
        .next { s with bus := s.repliedBus .channelRestore .part .wrongState .empty }) ∧
    (s.egress.active = false → ∀ c : Chan, ∃ t, exec (.channelRestore .fits (.one c.num)) s = .next t ∧
      t = { s with
        bus := s.repliedBus .channelRestore .part .ok
          (.restored [(c, (s.egress.latch.get c).isSome, (t.chan c).state)])
        egress := { s.egress with latch := s.egress.latch.set c none }
        notices := t.notices
        arbiter := t.arbiter
        channels := t.channels
        ports := t.ports } ∧
      s.ChannelsFollow t) ∧
    (s.egress.active = false → ∃ t, exec (.channelRestore .fits .all) s = .next t ∧
      t = { s with
        bus := s.repliedBus .channelRestore .part .ok
          (.restored (Chan.all.map fun c => (c, (s.egress.latch.get c).isSome, (t.chan c).state)))
        egress := { s.egress with latch := .same none }
        notices := t.notices
        arbiter := t.arbiter
        channels := t.channels
        ports := t.ports } ∧
      s.ChannelsFollow t)

/-- A ramp line going unsafe, or safe, is taken by its channel alone. Where the channel's call is open and
no egress or latch holds it, an unsafe ramp leaves the channel SUSPENDED with both lines inactive, the
suspension timer started and the limit-reached mark clear if it was not SUSPENDED before. A change of a
channel's state or lines queues CHANNEL_STATE, with the states and the line levels. -/
def Obligations.RampLinesSuspend : Prop :=
  ∀ (s : State) (c : Chan) (i : Instr) (safe : Bool), s.power = .running →
    (i = .rampUnsafe c ∧ safe = false ∨ i = .rampSafe c ∧ safe = true) →
    ∃ t, exec i s = .next t ∧
      t = { s with
        notices := t.notices
        arbiter := t.arbiter
        channels := t.channels
        ports := t.ports } ∧
      (s.setChan c { s.chan c with rampSafe := safe }).ChannelsFollow t ∧
      s.QueuesInOrder t (s.channelNotices t) ∧
      (∀ b, s.egress.active = false → s.egress.latch.get c = none → s.berthOf c = some b →
        (s.call b).state.isOpen = true →
        (safe = false → (t.chan c).state = .suspended ∧ (t.chan c).unlockIn = false ∧
          (t.chan c).unlockOut = false ∧
          ((s.chan c).state ≠ .suspended →
            (t.chan c).suspensionTimer = some (s.cfg.suspendLimit * 1000) ∧
            (t.chan c).limitReached = false)) ∧
        (safe = true → (t.chan c).state ≠ .suspended ∧ (t.chan c).suspensionTimer = none))

/-- The suspension timer's run-out on a SUSPENDED channel sets the limit-reached mark and ends every claim
of the channel, and no claim of another: unpassed seats go back to their allotments, the entries of the live
claims take the outcome of a lapse, oldest first, each provisional claim leaves an UNCERTAIN entry, and
HEADROOM is queued first where the seats given back bring the call's headroom above 0. Of two entries of a
card with one write tag the newest takes the outcome (assumption 19). -/
def Obligations.SuspensionLimitEndsClaims : Prop :=
  ∀ (s : State) (c : Chan), s.power = .running → (s.chan c).state = .suspended →
    (s.chan c).suspensionTimer = some 0 →
    ∃ t, exec (.suspensionTimerExpiry c) s = .next t ∧
      t = { s with
        claims := s.claims.set c .none
        tables := { s.tables with allot := s.allotEnded (fun _ => true) s.tables.allot c }
        engine := { s.engine with
          work := t.engine.work
          journey := s.journeyEnded (fun _ => true) s.engine.journey c }
        notices := t.notices
        arbiter := t.arbiter
        channels := t.channels
        ports := t.ports } ∧
      s.GatesKept t ∧ (t.chan c).limitReached = true ∧ (t.chan c).suspensionTimer = none ∧
      (Safety.ClaimsOnBoarding s → ∀ b, s.berthOf c = some b → s.QueuesInOrder t (s.headroomNotice t b))

/-- A beam event moves the tracker of its channel alone as the rows of Table 3-5 say, with the move from
SPANNED_OUT to LEAVING_OUT when the vessel beam clears, as the text of R57 gives it (assumption 34). An
event that the table does not give in the state changes nothing, which is the model's choice (assumption
23). An event that completes no passage moves no call, claim, passage tally, journey entry or table; where
it takes the tracker to CLEAR with the obstruction flag set, OBSTRUCTED CLEARED is queued with the seconds
since, rounded down (assumption 17). -/
def Obligations.BeamsMoveTheTracker : Prop :=
  ∀ (s : State) (c : Chan) (beam : Beam) (broken : Bool)
    (rows : List (Tracker × Beam × Bool × Tracker × Option Direction)), s.power = .running →
    rows =
      [(.clear, .shore, true, .outer, none), (.clear, .vessel, true, .inner, none),
       (.outer, .shore, false, .clear, none), (.outer, .vessel, true, .spannedIn, none),
       (.inner, .shore, true, .spannedOut, none), (.inner, .vessel, false, .clear, none),
       (.spannedIn, .shore, false, .leavingIn, none), (.spannedIn, .vessel, false, .outer, none),
       (.spannedOut, .shore, false, .inner, none), (.spannedOut, .vessel, false, .leavingOut, none),
       (.leavingIn, .shore, true, .spannedIn, none), (.leavingIn, .vessel, false, .clear, some .inward),
       (.leavingOut, .shore, false, .clear, some .outward), (.leavingOut, .vessel, true, .spannedOut, none)] →
    ((∀ (k : Tracker) (passage : Option Direction), ((s.chan c).tracker, beam, broken, k, passage) ∉ rows) →
      exec (.beamEvent c beam broken) s = .next s) ∧
    ∀ (k : Tracker) (passage : Option Direction), ((s.chan c).tracker, beam, broken, k, passage) ∈ rows →
      ∃ t, exec (.beamEvent c beam broken) s = .next t ∧ (t.chan c).tracker = k ∧
        (∀ d, d ≠ c → (s.chan d).SameGate (t.chan d)) ∧
        (t.chan c).beamA = (if beam = .shore then broken else (s.chan c).beamA) ∧
        (t.chan c).beamB = (if beam = .vessel then broken else (s.chan c).beamB) ∧
        (t.chan c).obstructionTimer = (if k = .clear then none
          else if (s.chan c).tracker = .clear then some 20000 else (s.chan c).obstructionTimer) ∧
        (t.chan c).obstructedAt = (if k = .clear then none else (s.chan c).obstructedAt) ∧
        (passage = none → s.QueuesInOrder t (if k = .clear then s.obstructionOver c else []) ∧ t = { s with
          engine := { s.engine with work := t.engine.work }
          notices := t.notices
          arbiter := t.arbiter
          channels := t.channels
          ports := t.ports } ∧
          (t.chan c).tallies.inward = (s.chan c).tallies.inward ∧
          (t.chan c).tallies.outward = (s.chan c).tallies.outward ∧
          (t.chan c).tallies.unpaid = (s.chan c).tallies.unpaid ∧
          (t.chan c).tallies.stray = (s.chan c).tallies.stray ∧
          (t.chan c).tallies.egressIn = (s.chan c).tallies.egressIn ∧
          (t.chan c).tallies.egressOut = (s.chan c).tallies.egressOut)

/-- A passage completed. On an EGRESS_HELD channel: its egress tally rises and nothing else is counted.
Elsewhere with no open call at the channel's berth: a stray passage. With an open call, outward: an
alighting, or an excess alighting where no passenger is aboard, and no claim moves. Inward with a live
claim: one seat of the head passes, its kind's count rises, its allotment has one seat less held and one
more passed, and with the claim's last seat its newest journey entry, where ADMITTED, becomes BOARDED.
Inward without one: an unpaid boarding, with UNPAID_PASSAGE, then OVER_CAPACITY where the mark is set.
HEADROOM comes next where the call's headroom crosses between 0 and above 0. Where the obstruction flag was
set, OBSTRUCTED CLEARED stands behind them (assumption 18), with the seconds since rounded down (assumption
17). Of two entries of a card with one write tag the newest is the one that changes (assumption 19). -/
def Obligations.PassagesAreCounted : Prop :=
  ∀ (s : State) (c : Chan) (i : Instr) (inward : Bool), s.power = .running →
    (i = .beamEvent c .shore false ∧ (s.chan c).tracker = .leavingOut ∧ inward = false ∨
      i = .beamEvent c .vessel false ∧ (s.chan c).tracker = .leavingIn ∧ inward = true) →
    (∀ held : Bool, held = decide ((s.chan c).state = .egressHeld) →
      held = true ∨ (∀ b, s.berthOf c = some b → (s.call b).state.isOpen = false) →
      ∃ t, exec i s = .next t ∧
        t = { s with
          engine := { s.engine with work := t.engine.work }
          notices := t.notices
          arbiter := t.arbiter
          channels := t.channels
          ports := t.ports } ∧
        (t.chan c).tallies.egressIn = min ((s.chan c).tallies.egressIn + if held && inward then 1 else 0)
          (if held && inward then 65535 else (s.chan c).tallies.egressIn) ∧
        (t.chan c).tallies.egressOut = min ((s.chan c).tallies.egressOut + if held && !inward then 1 else 0)
          (if held && !inward then 65535 else (s.chan c).tallies.egressOut) ∧
        (t.chan c).tallies.inward = min ((s.chan c).tallies.inward + if !held && inward then 1 else 0)
          (if !held && inward then 65535 else (s.chan c).tallies.inward) ∧
        (t.chan c).tallies.outward = min ((s.chan c).tallies.outward + if !held && !inward then 1 else 0)
          (if !held && !inward then 65535 else (s.chan c).tallies.outward) ∧
        (t.chan c).tallies.stray = min ((s.chan c).tallies.stray + if held then 0 else 1)
          (if held then (s.chan c).tallies.stray else 65535) ∧
        (t.chan c).tallies.unpaid = (s.chan c).tallies.unpaid ∧
        s.QueuesInOrder t (s.obstructionOver c)) ∧
    ∀ b, (s.chan c).state ≠ .egressHeld → s.berthOf c = some b → (s.call b).state.isOpen = true →
      ∃ t, exec i s = .next t ∧
        t = { s with
          calls := s.calls.set b (t.call b)
          claims := s.claims.set c (t.claimsOf c)
          tables := { s.tables with allot := t.tables.allot }
          engine := { s.engine with work := t.engine.work, journey := t.engine.journey }
          notices := t.notices
          arbiter := t.arbiter
          channels := t.channels
          ports := t.ports } ∧
        (t.chan c).tallies.stray = (s.chan c).tallies.stray ∧
        (t.chan c).tallies.egressIn = (s.chan c).tallies.egressIn ∧
        (t.chan c).tallies.egressOut = (s.chan c).tallies.egressOut ∧
        (inward = false →
          t.claims = s.claims ∧ t.tables = s.tables ∧ t.engine.journey = s.engine.journey ∧
          t.call b = (if (s.call b).alighted < (s.call b).declared + (s.call b).boarded.sum
            then { s.call b with alighted := min ((s.call b).alighted + 1) 65535 }
            else { s.call b with excess := min ((s.call b).excess + 1) 65535 }) ∧
          (t.chan c).tallies.outward = min ((s.chan c).tallies.outward + 1) 65535 ∧
          (t.chan c).tallies.inward = (s.chan c).tallies.inward ∧
          (t.chan c).tallies.unpaid = (s.chan c).tallies.unpaid ∧
          s.QueuesInOrder t (s.headroomNotice t b ++ s.obstructionOver c)) ∧
        (inward = true →
          (t.chan c).tallies.inward = min ((s.chan c).tallies.inward + 1) 65535 ∧
          (t.chan c).tallies.outward = (s.chan c).tallies.outward) ∧
        (inward = true → ∀ k ks, (s.claimsOf c).live = k :: ks →
          t.call b = { s.call b with boarded := (s.call b).boarded.count k.kind } ∧
          t.claimsOf c = { s.claimsOf c with
            live := if k.passed + 1 < k.granted
              then { k with passed := k.passed + 1, window := s.cfg.passWindow.get c * 1000 } :: ks
              else promote (s.cfg.passWindow.get c * 1000) ks } ∧
          t.tables.allot = (match k.allot with
            | none => s.tables.allot
            | some token => s.tables.allot.map fun a => if a.token = token then
                { a with held := a.held - 1, passed := a.passed + 1 } else a) ∧
          (t.chan c).tallies.unpaid = (s.chan c).tallies.unpaid ∧
          (k.berth = b → s.QueuesInOrder t (s.headroomNotice t b ++ s.obstructionOver c)) ∧
          (k.passed + 1 < k.granted ∨ (∀ e ∈ s.engine.journey, ¬k.IsEntry e) →
            t.engine.journey = s.engine.journey) ∧
          (k.granted ≤ k.passed + 1 → ∀ xs e ys, s.engine.journey = xs ++ e :: ys → k.IsEntry e →
            (∀ y ∈ ys, ¬k.IsEntry y) →
            t.engine.journey =
              xs ++ { e with outcome := if e.outcome = .admitted then .boarded else e.outcome } :: ys)) ∧
        (inward = true → (s.claimsOf c).live = [] →
          t.claims = s.claims ∧ t.tables = s.tables ∧ t.engine.journey = s.engine.journey ∧
          t.call b = { s.call b with
            boarded := { (s.call b).boarded with unpaid := min ((s.call b).boarded.unpaid + 1) 65535 }
            overCapacity := (s.call b).overCapacity ||
              decide ((s.call b).capacity <
                (s.call b).declared + (t.call b).boarded.sum - (s.call b).alighted + s.held b) } ∧
          (t.chan c).tallies.unpaid = min ((s.chan c).tallies.unpaid + 1) 65535 ∧
          s.QueuesInOrder t
            (.unpaidPassage c b (s.call b).vessel (t.call b).boarded.unpaid (t.aboard b) ::
              (if (t.call b).overCapacity = true ∧ (s.call b).overCapacity = false then
                [.overCapacity b (s.call b).vessel .unpaid (s.call b).capacity (t.aboard b) (s.held b)] else []) ++
              s.headroomNotice t b ++ s.obstructionOver c))

/-- The pass window's run-out on a channel that is not SUSPENDED lapses the head claim alone: its unpassed
seats go back to its allotment, its newest journey entry, where ADMITTED, becomes BOARDED with a seat
passed, else PAID_NOT_PASSED with a charge, else RESOLVED, and the next claim becomes head with a full
window. Of two entries of a card with one write tag the newest is the one that changes (assumption 19). -/
def Obligations.PassWindowLapsesTheHead : Prop :=
  ∀ (s : State) (c : Chan) (k : Claim) (ks : List Claim), s.power = .running →
    (s.chan c).state ≠ .suspended → (s.claimsOf c).live = k :: ks → k.window = 0 →
    ∃ t, exec (.passWindowExpiry c) s = .next t ∧
      t = { s with
        claims := s.claims.set c { s.claimsOf c with
          live := match ks with
            | [] => []
            | n :: ns => { n with window := s.cfg.passWindow.get c * 1000 } :: ns }
        tables := { s.tables with allot := match k.allot with
          | none => s.tables.allot
          | some token => s.tables.allot.map fun a => if a.token = token then
              { a with
                remaining := a.remaining + (k.granted - k.passed)
                held := a.held - (k.granted - k.passed) } else a }
        engine := { s.engine with work := t.engine.work, journey := t.engine.journey }
        notices := t.notices
        arbiter := t.arbiter
        channels := t.channels
        ports := t.ports } ∧
      s.GatesKept t ∧
      ((∀ e ∈ s.engine.journey, ¬k.IsEntry e) → t.engine.journey = s.engine.journey) ∧
      ∀ xs e ys, s.engine.journey = xs ++ e :: ys → k.IsEntry e → (∀ y ∈ ys, ¬k.IsEntry y) →
        t.engine.journey = xs ++ { e with
          outcome := if e.outcome ≠ .admitted then e.outcome
            else if 0 < k.passed then .boarded
            else if e.charge ≠ .none then .paidNotPassed
            else .resolved } :: ys

/-! ### Egress -/

/-- EGRESS_ENTER, at the part or broadcast, and EVACUATE_ACTIVE, while egress is inactive, enter egress: the
cause is recorded, the hold of 30 s runs, the postures are taken from the settings, every open call is ENDED
with reason EGRESS, berth 0 before berth 1, with the ends of its claims in the allotments and the journey
list, the engine's work for a channel of an ended call takes the end mark EGRESS, both referral slots, the
desk's place and the channels' places fall empty, every channel is EGRESS_HELD, and EGRESS_ENTERED stands
ahead of the CALL_STATE notices. Of two entries of a card with one write tag the newest takes the outcome of
a lapse (assumption 19). -/
def Obligations.EgressIsEntered : Prop :=
  ∀ (s : State) (i : Instr) (bus : Bus) (line : Bool), s.power = .running → s.egress.active = false →
    (i = .evacuateActive ∧ bus = s.bus ∧ line = true ∨
      (∃ dest, i = .egressEnter dest .fits ∧
        bus = s.repliedBus .egressEnter dest .ok (.alreadyActive false)) ∧ line = false) →
    ∃ t, exec i s = .next t ∧
      t.egress = {
        active := true
        byLine := line
        byCommand := !line
        level := line || s.egress.level
        hold := some 30000
        pendingClear := false
        posture := .of fun c => some (s.cfg.posture.get c)
        latch := .same none } ∧
      t.bus = bus ∧ t.settings = s.settings ∧ t.uptime = s.uptime ∧ t.clock = s.clock ∧
      t.reportTimer = s.reportTimer ∧ s.GatesKept t ∧
      t.tables = { s.tables with allot := t.tables.allot } ∧
      t.tables.allot = [Berth.b0, .b1].foldl (fun l b =>
        if (s.call b).state.isOpen then Chan.all.foldl (s.allotEnded fun k => k.berth = b) l else l)
        s.tables.allot ∧
      t.engine.journey = [Berth.b0, .b1].foldl (fun j b =>
        if (s.call b).state.isOpen then Chan.all.foldl (s.journeyEnded fun k => k.berth = b) j else j)
        s.engine.journey ∧
      (∀ b, t.call b = if (s.call b).state.isOpen then
        { s.call b with state := .ended, endReason := .egress, endedAt := s.stamp } else s.call b) ∧
      (∀ b, (s.call b).state.isOpen = true → t.timersOf b = .stopped) ∧
      (∀ c, ∀ k ∈ (t.claimsOf c).every, (s.call k.berth).state.isOpen = false) ∧
      t.slot .s0 = none ∧ t.slot .s1 = none ∧ t.arbiter.desk = none ∧
      t.arbiter.deskOccupied = (s.arbiter.deskOccupied && s.arbiter.desk.isNone) ∧
      (∀ c, (s.chan c).state ≠ .egressHeld ∨
          (∃ b, s.berthOf c = some b ∧ (s.call b).state.isOpen = true) →
        t.arbiter.places.get c = none) ∧
      t.engine = { s.engine with
        work := s.engine.work.map fun w => match w.requester with
          | .desk _ => w
          | .channel c => match s.berthOf c with
            | none => w
            | some b => if (s.call b).state.isOpen then { w with mark := .egress } else w
        journey := t.engine.journey
        slot0 := none
        slot1 := none } ∧
      (∀ c, (t.chan c).state = .egressHeld) ∧
      s.QueuesFirst t (.egressEntered (if line then .line else .command)
        (.of fun c => (some (s.cfg.posture.get c), (s.chan c).tallies.egressIn,
          (s.chan c).tallies.egressOut))) ∧
      s.QueuesInOrder t
        (.egressEntered (if line then .line else .command)
          (.of fun c => (some (s.cfg.posture.get c), (s.chan c).tallies.egressIn,
            (s.chan c).tallies.egressOut)) ::
          [Berth.b0, .b1].flatMap fun b => if (s.call b).state.isOpen then
            [.callState b (s.call b).vessel (s.call b).state .ended .egress .egress (s.aboard b)
              ((s.call b).capacity - s.aboard b)] else [])

/-- EGRESS_CLEAR with the line inactive and the hold run out, and the hold's run-out with a clear pending,
leave egress: causes and postures are gone, OPEN and CLOSED postures are latched, EGRESS_LEFT is the first
notice, with the latches and the egress tallies, and every channel has the state derived from its causes as
they then stand, with that state's unlock lines; a change of a channel's state or lines queues CHANNEL_STATE
after it, channel 0 to channel 3. -/
def Obligations.EgressIsLeft : Prop :=
  ∀ (s : State) (i : Instr) (bus : Bus) (latch : PerChan (Option Latch)), s.power = .running →
    s.egress.active = true →
    (i = .minimumHoldExpiry ∧ s.egress.hold = some 0 ∧ s.egress.pendingClear = true ∧ bus = s.bus ∨
      ∃ dest, i = .egressClear dest .fits ∧ s.egress.level = false ∧ s.egress.hold = none ∧
        bus = s.repliedBus .egressClear dest .ok .clearEnded) →
    (latch = .of fun c => match s.egress.posture.get c with
      | some .opened => some .opened
      | some .closed => some .closed
      | _ => none) →
    ∃ t, exec i s = .next t ∧
      t = { s with
        bus := bus
        egress := {
          active := false
          byLine := false
          byCommand := false
          level := s.egress.level
          hold := none
          pendingClear := false
          posture := .same none
          latch := latch }
        notices := t.notices
        arbiter := t.arbiter
        channels := t.channels
        ports := t.ports } ∧
      s.ChannelsFollow t ∧
      (∀ c, (t.chan c).state = t.deriveState c ∧
        (latch.get c ≠ none → (t.chan c).state = .egressHeld) ∧
        ((t.chan c).unlockIn, (t.chan c).unlockOut) = t.lines c (t.chan c).state ∧
        (latch.get c = some .opened → (t.chan c).unlockIn = true ∧ (t.chan c).unlockOut = true) ∧
        (latch.get c = some .closed → (t.chan c).unlockIn = false ∧ (t.chan c).unlockOut = false)) ∧
      s.QueuesInOrder t (.egressLeft (.of fun c =>
        (latch.get c, (s.chan c).tallies.egressIn, (s.chan c).tallies.egressOut)) :: s.channelNotices t)

/-- What else moves the egress controller, and nothing but it and the reply: EGRESS_CLEAR within the hold is
pending, answered with the time left in milliseconds (a unit the model chose, assumption 32); the hold's
run-out with no clear pending; EVACUATE_INACTIVE; a further cause of egress; and EGRESS_CLEAR is refused
while the line is active or egress is not. -/
def Obligations.EgressControllerMoves : Prop :=
  ∀ (s : State) (dest : Dest), s.power = .running →
    (∀ left, s.egress.active = true → s.egress.level = false → s.egress.hold = some left →
      exec (.egressClear dest .fits) s = .next { s with
        bus := s.repliedBus .egressClear dest .ok (.clearPending left)
        egress := { s.egress with pendingClear := true } }) ∧
    (s.egress.active = false ∨ s.egress.level = true → exec (.egressClear dest .fits) s = .next { s with
      bus := s.repliedBus .egressClear dest .wrongState .empty }) ∧
    (s.egress.hold = some 0 → s.egress.pendingClear = false →
      exec .minimumHoldExpiry s = .next { s with egress := { s.egress with hold := none } }) ∧
    exec .evacuateInactive s = .next { s with egress := { s.egress with level := false } } ∧
    (s.egress.active = true → exec .evacuateActive s = .next { s with
      egress := { s.egress with level := true, byLine := true, pendingClear := false } }) ∧
    (s.egress.active = true → exec (.egressEnter dest .fits) s = .next { s with
      bus := s.repliedBus .egressEnter dest .ok (.alreadyActive true)
      egress := { s.egress with byCommand := true } })

/-! ### Tables -/

/-- LOAD_BEGIN opens a load area, in place of one of the same kind and version, is refused BAD_FIELD with a
field out of its range and BUSY while another is open; LOAD_ABORT closes it; the inactivity run-out closes
it and reports it, and changes nothing where the timer has been restarted in the meantime. -/
def Obligations.LoadsOpenAndClose : Prop :=
  ∀ (s : State) (dest : Dest), s.power = .running →
    (∀ (kind : LoadKind) (version count : Nat) (crc : BitVec 16), version ≠ 0 →
      (kind = .product → 1 ≤ count ∧ count ≤ 48) → (kind = .tariff → 72 ≤ count ∧ count ≤ 76) →
      (kind = .deny → count ≤ 4096) →
      ((∀ l, s.tables.load = some l → l.kind = kind ∧ l.version = version) →
        exec (.loadBegin dest .fits (some kind) version count crc) s = .next { s with
          bus := s.repliedBus .loadBegin dest .ok .empty
          tables := { s.tables with
            load := some ⟨kind, version, count, crc, 0, [], none, 30000⟩ } }) ∧
      ∀ l, s.tables.load = some l → l.kind ≠ kind ∨ l.version ≠ version →
        exec (.loadBegin dest .fits (some kind) version count crc) s = .next { s with
          bus := s.repliedBus .loadBegin dest .busy .empty }) ∧
    (∀ (kind : Option LoadKind) (version count : Nat) (crc : BitVec 16),
      kind = none ∨ version = 0 ∨ kind = some .product ∧ (count = 0 ∨ 48 < count) ∨
        kind = some .tariff ∧ (count < 72 ∨ 76 < count) ∨ kind = some .deny ∧ 4096 < count →
      exec (.loadBegin dest .fits kind version count crc) s = .next { s with
        bus := s.repliedBus .loadBegin dest .badField .empty }) ∧
    (s.tables.load ≠ none → exec (.loadAbort dest .fits) s = .next { s with
      bus := s.repliedBus .loadAbort dest .ok .empty
      tables := { s.tables with load := none } }) ∧
    (s.tables.load = none → exec (.loadAbort dest .fits) s = .next { s with
      bus := s.repliedBus .loadAbort dest .wrongState .empty }) ∧
    ∀ l, s.tables.load = some l →
      (0 < l.idle → exec .loadInactivityExpiry s = .next s) ∧
      (l.idle = 0 → ∃ t, exec .loadInactivityExpiry s = .next t ∧
        t = { s with tables := { s.tables with load := none }, notices := t.notices } ∧
        s.QueuesFirst t (.loadAbandoned l.kind l.version l.next l.broken.isSome))

/-- LOAD_SEGMENT with the next index and its number of entries of the load's kind: entries that pass their
checks are appended; the first that fails breaks the load at its position, and those before it stand, that
one left out, which is the model's choice (assumption 29); a broken load takes no entry and names its
position again. A body that is not the segment's number of entries of the kind is refused BAD_LENGTH; that an
entry of another kind than the open load's makes it so is the model's choice (assumption 15). The segment
before is acknowledged again; another index, or no open load, is refused. -/
def Obligations.SegmentsAreTaken : Prop :=
  ∀ (s : State) (dest : Dest) (len : BodyLen) (es : List LoadEntry), s.power = .running →
    (s.tables.load = none → ∀ index, exec (.loadSegment dest len index es) s = .next { s with
      bus := s.repliedBus .loadSegment dest .wrongState .empty }) ∧
    ∀ l : Load, s.tables.load = some l →
      (0 < l.next → exec (.loadSegment dest len (l.next - 1) es) s = .next { s with
        bus := s.repliedBus .loadSegment dest .ok .empty
        tables := { s.tables with load := some { l with idle := 30000 } } }) ∧
      (∀ index, index + 1 ≠ l.next → (l.count ≤ 16 * index ∨ index ≠ l.next) →
        exec (.loadSegment dest len index es) s = .next { s with
          bus := s.repliedBus .loadSegment dest .badField .empty }) ∧
      (16 * l.next < l.count →
        len = .wrong ∨ es.length ≠ min 16 (l.count - 16 * l.next) ∨
          (∃ e ∈ es, entryOfKind l.kind e.content = false) →
        exec (.loadSegment dest len l.next es) s = .next { s with
          bus := s.repliedBus .loadSegment dest .badLength .empty }) ∧
      (len = .fits → 16 * l.next < l.count → es.length = min 16 (l.count - 16 * l.next) →
        (∀ e ∈ es, entryOfKind l.kind e.content = true) →
        (l.broken = none →
          (∀ xs e ys, es = xs ++ e :: ys →
            entryOk (l.entries ++ xs).length ((l.entries ++ xs).getLast?.map LoadEntry.content)
              e.content = true) →
          exec (.loadSegment dest len l.next es) s = .next { s with
            bus := s.repliedBus .loadSegment dest .ok .empty
            tables := { s.tables with
              load := some { l with
                next := l.next + 1
                entries := l.entries ++ es
                idle := 30000 } } }) ∧
        (l.broken = none → ∀ xs e ys, es = xs ++ e :: ys →
          (∀ us d vs, xs = us ++ d :: vs →
            entryOk (l.entries ++ us).length ((l.entries ++ us).getLast?.map LoadEntry.content)
              d.content = true) →
          entryOk (l.entries ++ xs).length ((l.entries ++ xs).getLast?.map LoadEntry.content)
            e.content = false →
          exec (.loadSegment dest len l.next es) s = .next { s with
            bus := s.repliedBus .loadSegment dest .badField (.brokenAt (l.entries ++ xs).length)
            tables := { s.tables with
              load := some { l with
                next := l.next + 1
                entries := l.entries ++ xs
                broken := some (l.entries ++ xs).length
                idle := 30000 } } }) ∧
        ∀ position, l.broken = some position →
          exec (.loadSegment dest len l.next es) s = .next { s with
            bus := s.repliedBus .loadSegment dest .badField (.brokenAt position)
            tables := { s.tables with
              load := some { l with next := l.next + 1, idle := 30000 } } })

/-- LOAD_COMMIT of a whole, unbroken load whose CRC matches replaces the table of its kind under the load's
version and closes the load area; a tariff becomes active or pending by its effective time. A load that
fails a test is discarded with the number of the first it fails, and no table changes. With no load open it
is refused WRONG_STATE. The CRC's bit order and final XOR are presumed (assumption 36). -/
def Obligations.LoadCommitReplacesTheTable : Prop :=
  (∀ (s : State) (dest : Dest), s.power = .running → s.tables.load = none →
    exec (.loadCommit dest .fits) s = .next { s with
      bus := s.repliedBus .loadCommit dest .wrongState .empty }) ∧
  ∀ (s : State) (dest : Dest) (l : Load), s.power = .running → s.tables.load = some l →
    (l.entries.length ≠ l.count → exec (.loadCommit dest .fits) s = .next { s with
      bus := s.repliedBus .loadCommit dest .badField (.failedTest 1)
      tables := { s.tables with load := none } }) ∧
    (l.entries.length = l.count → l.broken ≠ none → exec (.loadCommit dest .fits) s = .next { s with
      bus := s.repliedBus .loadCommit dest .badField (.failedTest 2)
      tables := { s.tables with load := none } }) ∧
    (l.entries.length = l.count → l.broken = none → crc16 (l.entries.flatMap LoadEntry.octets) ≠ l.crc →
      exec (.loadCommit dest .fits) s = .next { s with
        bus := s.repliedBus .loadCommit dest .badField (.failedTest 3)
        tables := { s.tables with load := none } }) ∧
    (l.entries.length = l.count → l.broken = none → crc16 (l.entries.flatMap LoadEntry.octets) = l.crc →
      (l.kind = .product → exec (.loadCommit dest .fits) s = .next { s with
        bus := s.repliedBus .loadCommit dest .ok (.committed .product l.version l.count none)
        tables := { s.tables with
          load := none
          product := some ⟨l.version, productEntries l.entries⟩ } }) ∧
      (l.kind = .deny → exec (.loadCommit dest .fits) s = .next { s with
        bus := s.repliedBus .loadCommit dest .ok (.committed .deny l.version l.count none)
        tables := { s.tables with
          load := none
          deny := ⟨l.version, denyEntries l.entries, 0⟩ } }) ∧
      (l.kind = .tariff → ∀ p, p = tariffOf l.version l.entries →
        (p.effective = ⟨0, 0⟩ ∨ (∃ now, s.clock = some now ∧
            (p.effective.day < now.day ∨ p.effective.day = now.day ∧ p.effective.secs ≤ now.secs)) →
          ∃ t, exec (.loadCommit dest .fits) s = .next t ∧
            t = { s with
              bus := s.repliedBus .loadCommit dest .ok (.committed .tariff l.version l.count (some .active))
              tables := { s.tables with load := none, active := some p }
              notices := t.notices } ∧
            s.QueuesFirst t (.tariffActive l.version p.effective (s.tables.active.map Tariff.version)
              .commit)) ∧
        (p.effective ≠ ⟨0, 0⟩ → (∀ now, s.clock = some now →
            now.day < p.effective.day ∨ now.day = p.effective.day ∧ now.secs < p.effective.secs) →
          exec (.loadCommit dest .fits) s = .next { s with
            bus := s.repliedBus .loadCommit dest .ok (.committed .tariff l.version l.count (some .pending))
            tables := { s.tables with load := none, pendingTariff := some p } })))

/-- DENY_EDIT. REMOVE takes the entries of the ids carried off the list. ADD, with room for its ids, puts in
each id that is not there, in card-id order, and an id already there is left as it is; at an id that is not
there with the list full it stops, refused NO_ROOM, and the ids before it stay added. The edit count rises
by one for an edit that changed an entry. A message with an unknown operation, 0 or more than 16 ids, an id
of all zeros, or for ADD an unknown reason or action is refused BAD_FIELD, and one of a wrong length
BAD_LENGTH. -/
def Obligations.DenyEditEditsTheList : Prop :=
  ∀ (s : State) (dest : Dest) (items : List DenyItem), s.power = .running →
    (∀ op : Option DenyOp,
      op = none ∨ items.length = 0 ∨ 16 < items.length ∨ (∃ i ∈ items, i.id = 0) ∨
        op = some .add ∧ (∃ i ∈ items, i.reason = none ∨ i.action = none) →
      exec (.denyEdit dest .fits op items) s = .next { s with
        bus := s.repliedBus .denyEdit dest .badField .empty }) ∧
    (1 ≤ items.length → items.length ≤ 16 → (∀ i ∈ items, i.id ≠ 0) →
      (∀ op : DenyOp, (op = .add → ∀ i ∈ items, i.reason ≠ none ∧ i.action ≠ none) →
        exec (.denyEdit dest .wrong (some op) items) s = .next { s with
          bus := s.repliedBus .denyEdit dest .badLength .empty }) ∧
      (∃ n, exec (.denyEdit dest .fits (some .remove) items) s = .next { s with
          bus := s.repliedBus .denyEdit dest .ok (.edited n)
          tables := { s.tables with
            deny := ⟨s.tables.deny.version,
              s.tables.deny.entries.filter (fun e => items.all fun i => i.id ≠ e.id),
              if n = 0 then s.tables.deny.edits else min (s.tables.deny.edits + 1) 65535⟩ } } ∧
        n = ((items.map DenyItem.id).dedup.filter fun x => s.tables.deny.entries.any fun e => e.id = x).length) ∧
      ((∀ i ∈ items, i.reason ≠ none ∧ i.action ≠ none) →
        (s.tables.deny.entries.length + items.length ≤ 4096 →
          ∃ n list, exec (.denyEdit dest .fits (some .add) items) s = .next { s with
              bus := s.repliedBus .denyEdit dest .ok (.edited n)
              tables := { s.tables with
                deny := ⟨s.tables.deny.version, list,
                  if n = 0 then s.tables.deny.edits else min (s.tables.deny.edits + 1) 65535⟩ } } ∧
            list.length = s.tables.deny.entries.length + n ∧
            (∀ e ∈ s.tables.deny.entries, e ∈ list) ∧
            (∀ i ∈ items, ∃ e ∈ list, e.id = i.id) ∧
            (∀ e ∈ list, e ∈ s.tables.deny.entries ∨
              (∀ d ∈ s.tables.deny.entries, d.id ≠ e.id) ∧
                ∃ i ∈ items, i.id = e.id ∧ i.reason = some e.reason ∧ i.action = some e.action) ∧
            (s.tables.deny.entries.Pairwise (fun d e => d.id.toNat < e.id.toNat) →
              list.Pairwise fun d e => d.id.toNat < e.id.toNat)) ∧
        (4096 ≤ s.tables.deny.entries.length → ∀ i is, items = i :: is →
          (∀ e ∈ s.tables.deny.entries, e.id ≠ i.id) →
          exec (.denyEdit dest .fits (some .add) items) s = .next { s with
            bus := s.repliedBus .denyEdit dest .noRoom (.edited 0) }) ∧
        ∀ xs i ys n, items = xs ++ i :: ys →
          n = ((xs.map DenyItem.id).dedup.filter fun x =>
            s.tables.deny.entries.all fun e => e.id ≠ x).length →
          s.tables.deny.entries.length + n = 4096 → (∀ x ∈ xs, x.id ≠ i.id) →
          (∀ e ∈ s.tables.deny.entries, e.id ≠ i.id) →
          ∃ list, exec (.denyEdit dest .fits (some .add) items) s = .next { s with
              bus := s.repliedBus .denyEdit dest .noRoom (.edited n)
              tables := { s.tables with
                deny := ⟨s.tables.deny.version, list,
                  if n = 0 then s.tables.deny.edits else min (s.tables.deny.edits + 1) 65535⟩ } } ∧
            list.length = 4096 ∧ (∀ e ∈ s.tables.deny.entries, e ∈ list) ∧
            (∀ x ∈ xs, ∃ e ∈ list, e.id = x.id) ∧
            (∀ e ∈ list, e ∈ s.tables.deny.entries ∨
              (∀ d ∈ s.tables.deny.entries, d.id ≠ e.id) ∧
                ∃ x ∈ xs, x.id = e.id ∧ x.reason = some e.reason ∧ x.action = some e.action) ∧
            (s.tables.deny.entries.Pairwise (fun d e => d.id.toNat < e.id.toNat) →
              list.Pairwise fun d e => d.id.toNat < e.id.toNat)))

/-- ALLOT_SET with fields in range adds an entry for a new token, with no seat held or passed, and changes
the entry of a token that stands, keeping what it has held and passed; ALLOT_REMOVE takes off an entry with
no seat held and no referral of it, and is refused WRONG_STATE otherwise. A token of 0 or a field out of its
range is refused BAD_FIELD. -/
def Obligations.AllotmentsAreSetAndRemoved : Prop :=
  (∀ s : State, s.power = .running →
    (∀ (token : CardId) (line total block : Nat) (expiry : Option ClockTime),
      token = 0 ∨ 63 < line ∨ total = 0 ∨ 9999 < total ∨ block = 0 ∨ 9 < block ∨
        (∃ e, expiry = some e ∧ (65535 < e.day ∨ 86399 < e.secs)) →
      exec (.allotSet .fits token line total block expiry) s = .next { s with
        bus := s.repliedBus .allotSet .part .badField .empty }) ∧
    exec (.allotRemove .fits 0) s = .next { s with
      bus := s.repliedBus .allotRemove .part .badField .empty }) ∧
  ∀ (s : State) (token : CardId), s.power = .running → token ≠ 0 →
    (∀ (line total block : Nat) (expiry : Option ClockTime), line ≤ 63 → 1 ≤ total → total ≤ 9999 →
      1 ≤ block → block ≤ 9 → (∀ e, expiry = some e → e.day ≤ 65535 ∧ e.secs ≤ 86399) →
      (∀ a : Allotment, a = ⟨token, line, total, total, 0, 0, block, expiry⟩ →
        s.allotOf token = none →
        (s.tables.allot.length < 16 → exec (.allotSet .fits token line total block expiry) s = .next { s with
          bus := s.repliedBus .allotSet .part .ok
            (.allotment (some (a, a.stateAt s.clock)))
          tables := { s.tables with allot := s.tables.allot ++ [a] } }) ∧
        (16 ≤ s.tables.allot.length →
          exec (.allotSet .fits token line total block expiry) s = .next { s with
            bus := s.repliedBus .allotSet .part .noRoom .empty })) ∧
      ∀ a : Allotment, s.allotOf token = some a →
        (a.passed + a.held ≤ total → ∀ f : Allotment → Allotment,
          (f = fun x => { x with
            line := line
            total := total
            remaining := total - x.passed - x.held
            block := block
            expiry := expiry }) →
          exec (.allotSet .fits token line total block expiry) s = .next { s with
            bus := s.repliedBus .allotSet .part .ok
              (.allotment (some (f a, (f a).stateAt s.clock)))
            tables := { s.tables with
              allot := s.tables.allot.map fun x => if x.token = token then f x else x } }) ∧
        (total < a.passed + a.held → exec (.allotSet .fits token line total block expiry) s = .next { s with
          bus := s.repliedBus .allotSet .part .badField .empty })) ∧
    (s.allotOf token = none → exec (.allotRemove .fits token) s = .next { s with
      bus := s.repliedBus .allotRemove .part .ok (.allotment none) }) ∧
    ∀ a : Allotment, s.allotOf token = some a →
      (a.held = 0 → (∀ i r x y, s.slot i = some r → r.cause = .allotmentSpent x y → r.card.id ≠ token) →
        exec (.allotRemove .fits token) s = .next { s with
          bus := s.repliedBus .allotRemove .part .ok (.allotment (some (a, a.stateAt s.clock)))
          tables := { s.tables with allot := s.tables.allot.filter fun x => x.token ≠ token } }) ∧
      (0 < a.held ∨ (∃ i r x y, s.slot i = some r ∧ r.cause = .allotmentSpent x y ∧ r.card.id = token) →
        exec (.allotRemove .fits token) s = .next { s with
          bus := s.repliedBus .allotRemove .part .wrongState .empty })

/-! ### Fares -/

/-- Under a tariff whose figures lie in their ranges the peak fare is no less than the line's base fare and
no more than 50.00 euro, the fare no more than the peak fare; an accepted stored-value card pays the fare
from its balance, not below the overdraft allowance, with its daily total written for today as S' =
min(65535, S0 + F4), within the cap; and it is LOW_BALANCE exactly where a fare would take the balance below
the allowance. Under any tariff the figures are those of the stages: P = (B × M + 50) div 100 with the
multiplier of the band that covers the minute of the reading, F1 = P − (P × D + 50) div 100, F2 = F1 − F1
mod U, F3 = F2 less the transfer credit K of an eligible card, and F4 what the daily cap leaves of F3. -/
def Obligations.FaresStayInBounds : Prop :=
  (∀ (t : Tariff) (line cls : Nat) (clock : Option ClockTime) (card : Card) (v : ValuePart),
    (∀ f ∈ t.base, f ≤ 2000) → (∀ k ∈ t.bands, 100 ≤ k.multiplier ∧ k.multiplier ≤ 250) →
    card.value = some v →
    ∀ f : FareFigures, f = fareFigures t line cls clock card →
      t.baseFare line ≤ f.peak ∧ f.peak ≤ 5000 ∧ f.fare ≤ f.peak ∧
      (storedValueFare t line cls clock card v = none ↔
        0 < f.fare ∧ v.balance - f.fare < -(t.overdraft : Int)) ∧
      ∀ fare w, storedValueFare t line cls clock card v = some (fare, w) →
        fare = f.fare ∧ w.balance = v.balance - fare ∧ (0 < fare → -(t.overdraft : Int) ≤ w.balance) ∧
        (clock = none → w.daily = v.daily ∧ w.day = v.day) ∧
        ∀ now, clock = some now → w.day = now.day ∧
          w.daily = min 65535 ((if v.day = now.day then v.daily else 0) + fare) ∧
          (0 < (t.classOf cls).cap → paidToday now.day (some v) ≤ (t.classOf cls).cap →
            w.daily ≤ (t.classOf cls).cap)) ∧
  ∀ (t : Tariff) (line cls : Nat) (clock : Option ClockTime) (card : Card)
    (m p f1 f2 credit f3 : Nat) (eligible : Prop),
    (clock = none ∧ m = 100 ∨ ∃ now, clock = some now ∧
      ((∀ b ∈ t.bands, ¬(b.start ≤ now.secs / 60 ∧ now.secs / 60 < b.stop)) ∧ m = 100 ∨
        ∃ xs b ys, t.bands = xs ++ b :: ys ∧
          (∀ x ∈ xs, ¬(x.start ≤ now.secs / 60 ∧ now.secs / 60 < x.stop)) ∧
          b.start ≤ now.secs / 60 ∧ now.secs / 60 < b.stop ∧ m = b.multiplier)) →
    p = (t.base.getD (line - 1) 0 * m + 50) / 100 →
    f1 = p - (p * (t.classes.getD cls ⟨0, 0⟩).discount + 50) / 100 → f2 = f1 - f1 % t.unit →
    (eligible ↔ ∃ now l, clock = some now ∧ card.last = some l ∧ 0 < t.window ∧ ¬(l.day = 0 ∧ l.secs = 0) ∧
      l.day = now.day ∧ l.secs ≤ now.secs ∧ now.secs - l.secs ≤ t.window * 60 ∧ l.line ≠ line) →
    (eligible → ∀ l, card.last = some l → credit = min l.fare t.creditCap) → (¬eligible → credit = 0) →
    f3 = f2 - credit →
    (fareFigures t line cls clock card).peak = p ∧
    (clock = none ∨ (t.classes.getD cls ⟨0, 0⟩).cap = 0 → (fareFigures t line cls clock card).fare = f3) ∧
    ∀ now paid, clock = some now → 0 < (t.classes.getD cls ⟨0, 0⟩).cap →
      (paid = match card.value with
        | some v => if v.day = now.day then v.daily else 0
        | none => 0) →
      (fareFigures t line cls clock card).fare = min f3 ((t.classes.getD cls ⟨0, 0⟩).cap - paid)

/-! ### Settings -/

/-- SETTINGS_SET of a value in its range, while no store runs and the berths it concerns are VACANT, puts
that setting in the working settings, whatever else is stored; a level set to 0 refuses the presentations
pending there NOT_SERVED; a level lowered, or LAST_CALL_LEVEL raised, refuses NOT_BOARDING what is pending
at a call in LAST_CALL at or below LAST_CALL_LEVEL; a report period set from 0 starts the report timer.
SETTINGS_DEFAULT and SETTINGS_RELOAD, while both berths are VACANT, put the defaults and the stored image in
the working settings. A berth's settings are LOCKED while the record of the old berth or of the new one is
not VACANT. -/
def Obligations.SettingsAreSet : Prop :=
  ∀ s : State, s.power = .running →
    (∀ (i : Instr) (k : MsgKind) (body : ReplyBody) (new : Settings) (fault : Bool),
      s.settings.storing = none →
      ((∃ n v before, i = .settingsSet .fits n v ∧ k = .settingsSet ∧ s.cfg.put n v = some new ∧
          s.cfg.value? n = some before ∧ body = .setting n before v ∧ fault = s.settings.fault ∧
          (n = 2 → ∀ b, (s.call b).state = .vacant) ∧
          ∀ c b, n = 3 + c.num → s.cfg.berthOf.get c = some b ∨ new.berthOf.get c = some b →
            (s.call b).state = .vacant) ∨
        ((∀ b, (s.call b).state = .vacant) ∧
          (i = .settingsDefault .fits ∧ k = .settingsDefault ∧ body = .empty ∧ new = .default ∧
              fault = s.settings.fault ∨
            i = .settingsReload .fits ∧ k = .settingsReload ∧ body = .reloaded true ∧
              loadImage s.settings.image = some new ∧ fault = false ∨
            i = .settingsReload .fits ∧ k = .settingsReload ∧ body = .reloaded false ∧
              loadImage s.settings.image = none ∧ new = .default ∧ fault = true))) →
      ∃ t, exec i s = .next t ∧
        t = { s with
          bus := s.repliedBus k .part .ok body
          settings := { s.settings with working := new, fault := fault }
          reportTimer := if s.cfg.countReportPeriod = 0 ∧ 0 < new.countReportPeriod
            then some (new.countReportPeriod * 1000) else s.reportTimer
          notices := t.notices
          arbiter := t.arbiter
          channels := t.channels
          ports := t.ports } ∧
        s.GatesKept t ∧
        (new = s.cfg → t.notices = s.notices ∧ t.arbiter = s.arbiter ∧ t.channels = s.channels ∧
          t.ports = s.ports) ∧
        (∀ c code,
          (new.level.get c = 0 ∧ s.cfg.level.get c ≠ 0 ∧ code = .notServed ∨
            new.level.get c ≠ 0 ∧
              (new.level.get c < s.cfg.level.get c ∨ s.cfg.lastCallLevel < new.lastCallLevel) ∧
              (∃ b, new.berthOf.get c = some b ∧ (s.call b).state = .lastCall) ∧
              new.level.get c ≤ new.lastCallLevel ∧ code = .notBoarding) →
          t.arbiter.places.get c = none ∧
          ∀ p, s.arbiter.places.get c = some p → s.Answers t c p.card code) ∧
        (new.deskLevel = 0 → s.cfg.deskLevel ≠ 0 → t.arbiter.desk = none)) ∧
    (s.settings.storing ≠ none → ∀ n v,
      exec (.settingsSet .fits n v) s = .next { s with
        bus := s.repliedBus .settingsSet .part .busy .empty } ∧
      exec (.settingsDefault .fits) s = .next { s with
        bus := s.repliedBus .settingsDefault .part .busy .empty } ∧
      exec (.settingsReload .fits) s = .next { s with
        bus := s.repliedBus .settingsReload .part .busy .empty }) ∧
    (s.settings.storing = none → ∀ n v, s.cfg.put n v = none →
      exec (.settingsSet .fits n v) s = .next { s with
        bus := s.repliedBus .settingsSet .part .badField .empty }) ∧
    ∀ b, s.settings.storing = none → (s.call b).state ≠ .vacant →
      (∀ v new, s.cfg.put 2 v = some new → exec (.settingsSet .fits 2 v) s = .next { s with
        bus := s.repliedBus .settingsSet .part .locked .empty }) ∧
      (∀ c v new, s.cfg.put (3 + c.num) v = some new →
        s.cfg.berthOf.get c = some b ∨ new.berthOf.get c = some b →
        exec (.settingsSet .fits (3 + c.num) v) s = .next { s with
          bus := s.repliedBus .settingsSet .part .locked .empty }) ∧
      exec (.settingsDefault .fits) s = .next { s with
        bus := s.repliedBus .settingsDefault .part .locked .empty } ∧
      exec (.settingsReload .fits) s = .next { s with
        bus := s.repliedBus .settingsReload .part .locked .empty }

/-- SETTINGS_STORE fixes the image of the working settings and counts one write; it is refused BUSY during a
store or with a start-up awaited, and WORN at 10 000 writes. The end of the write takes what the image memory
reads back: equal to the image fixed it ends OK and clears the settings fault, else it failed. -/
def Obligations.SettingsAreStored : Prop :=
  ∀ s : State, s.power = .running →
    (s.settings.storing = none → s.bus.restartAwaited = false →
      (s.settings.writeCount < 10000 → exec (.settingsStore .fits) s = .next { s with
        bus := s.repliedBus .settingsStore .part .ok .empty
        settings := { s.settings with
          storing := some (imageOf s.cfg)
          writeCount := s.settings.writeCount + 1 } }) ∧
      (10000 ≤ s.settings.writeCount → exec (.settingsStore .fits) s = .next { s with
        bus := s.repliedBus .settingsStore .part .worn .empty })) ∧
    (s.settings.storing ≠ none ∨ s.bus.restartAwaited = true →
      exec (.settingsStore .fits) s = .next { s with
        bus := s.repliedBus .settingsStore .part .busy .empty }) ∧
    ∀ target, s.settings.storing = some target → ∀ readBack,
      ∃ t, exec (.storeWriteEnd readBack) s = .next t ∧
        t = { s with
          settings := { s.settings with
            image := readBack
            storing := none
            fault := if readBack = target then false else s.settings.fault }
          notices := t.notices } ∧
        s.QueuesFirst t (.storeDone (decide (readBack = target)) s.settings.writeCount)

/-! ### The desk, the engine and referrals -/

/-- DESK_CHECK with readable card contents, a line 1 to 63 and no desk check in hand: during egress it is
answered EGRESS at once; otherwise it is pending while the engine is BUSY, and the engine takes it where it is
FREE and nothing else is pending. It is refused BAD_LENGTH, BAD_FIELD and BUSY where a test is not met. -/
def Obligations.DeskChecksAreTaken : Prop :=
  ∀ (s : State) (line : Nat) (body : List Octet), s.power = .running →
    (Card.parse body = none → exec (.deskCheck line body) s = .next { s with
      bus := s.repliedBus .deskCheck .part .badLength .empty }) ∧
    ∀ card, Card.parse body = some card →
      (line = 0 ∨ 63 < line → exec (.deskCheck line body) s = .next { s with
        bus := s.repliedBus .deskCheck .part .badField .empty }) ∧
      (1 ≤ line → line ≤ 63 → s.arbiter.deskOccupied = true →
        exec (.deskCheck line body) s = .next { s with
          bus := s.repliedBus .deskCheck .part .busy .empty }) ∧
      (1 ≤ line → line ≤ 63 → s.arbiter.deskOccupied = false →
        ∃ t, exec (.deskCheck line body) s = .next t ∧
          t = { s with
            bus := s.repliedBus .deskCheck .part .ok .empty
            engine := { s.engine with work := t.engine.work }
            notices := t.notices
            arbiter := t.arbiter
            channels := t.channels
            ports := t.ports } ∧
          s.GatesKept t ∧
          (∀ code,
            (s.egress.active = true ∧ code = .egress ∨
              s.egress.active = false ∧ s.cfg.deskLevel = 0 ∧ code = .notServed) →
            t.arbiter.deskOccupied = false ∧ t.arbiter.desk = none ∧
            s.QueuesFirst t (.deskResult ⟨.verdict code, card.id, none, line, none, none, none, none⟩)) ∧
          (s.egress.active = false → s.cfg.deskLevel ≠ 0 → t.arbiter.deskOccupied = true ∧
            (s.engine.work ≠ none → t.arbiter.desk = some ⟨card, line, s.uptime⟩ ∧
              t.engine.work = s.engine.work) ∧
            (s.engine.work = none → t.engine.work ≠ none ∧
              ((∀ c, s.arbiter.places.get c = none) →
                t.engine.work = some ⟨.desk line, card,
                  ⟨s.tables.product, s.tables.active, s.tables.deny.entries, s.clock, s.tables.allot⟩,
                  false, .none⟩ ∧
                t.arbiter.desk = none))))

/-- What the stages decide, and the completion of work that grants nothing. The model's stages decide as the
manual's tables do, an allotment entry taking its line, block size and expiry from the take (assumption 26),
a pass held against the day by day numbers (assumption 38), and the expiry of a token against the clock at the
completion, at a desk check too (assumption 39).
A desk check answers DESK_RESULT with the decision and the age of the newest entry, rounded down (assumption
17), and frees the desk, without figures of a charge for a recovery or a re-release (assumption 28);
withdrawn work is discarded; work whose call has ended is answered NOT_BOARDING or EGRESS; a card that
stages 1 to 8 refuse is answered with their verdict, and a deny entry that asks for it has the block mark
written under a tag drawn; an accepted card is answered with the refusal of stage 9, or FULL by stage 10
where the channel holds 3 claims or the call has no seats for it. A card that the stages refer with the host
SILENT or both slots held is decided at once by its fallback: REFUSE answers with the verdict of its cause,
ACCEPT takes it to stages 9 and 10 in the same way, a spent allotment with the block size of the take
(assumption 26; 1 for a card that is no token, assumption 13). No call, claim, table or referral changes,
and the journey list only by a recovery test not met. -/
def Obligations.CompletionWithoutSeats : Prop :=
  (∀ (s : State) (card : Card) (snap : Snapshot) (line : Nat) (d : Decision) (m : Bool),
    s.Decides card snap line d m ↔ s.decideCard card snap line = (d, m)) ∧
  (∀ (snap : Snapshot) (a : Allotment),
    ((∀ b ∈ snap.allot, b.token ≠ a.token) → snap.applied a = a) ∧
    ∀ xs b ys, snap.allot = xs ++ b :: ys → (∀ x ∈ xs, x.token ≠ a.token) → b.token = a.token →
      snap.applied a = { a with line := b.line, block := b.block, expiry := b.expiry }) ∧
  ∀ (s : State) (w : Work), s.power = .running → s.engine.work = some w →
    ((∃ line, w.requester = .desk line) ∨
      (∃ c, w.requester = .channel c ∧
        (w.withdrawn = true ∨ w.mark ≠ .none ∨ w.card.dataOk = false ∨ w.card.blocked = true)) →
    ∃ t, exec .validationCompletion s = .next t ∧
      t = { s with
        engine := { s.engine with work := t.engine.work }
        notices := t.notices
        arbiter := t.arbiter
        channels := t.channels
        ports := t.ports } ∧
      s.GatesKept t ∧
      (∀ line, w.requester = .desk line → t.arbiter.deskOccupied = false ∧
        ∃ r : DeskResult, s.QueuesFirst t (.deskResult r) ∧
          r.card = w.card.id ∧ r.product = some w.card.product ∧ r.line = line ∧
          (w.card.dataOk = false → r.outcome = .verdict .badCard) ∧
          (w.card.dataOk = true → w.card.blocked = true → r.outcome = .verdict .denied) ∧
          ((∀ e ∈ s.engine.journey, e.card ≠ w.card.id) → r.journey = none) ∧
          (∀ e, s.NewestIs w.card.id e → r.journey = some (e, (s.uptime - e.uptime) / 1000)) ∧
          (∀ code m, s.Decides w.card w.snap line (.refuse code) m →
            r.outcome = .verdict code ∧ r.charge = none ∧ r.ridesAfter = none ∧ r.allotment = none) ∧
          (∀ m, s.Decides w.card w.snap line .deniedBlock m →
            r.outcome = .verdict .denied ∧ r.charge = none ∧ r.ridesAfter = none ∧ r.allotment = none) ∧
          (∀ cause m, s.Decides w.card w.snap line (.refer cause) m →
            r.outcome = .wouldRefer cause.kind ∧ r.charge = none ∧ r.ridesAfter = none ∧
            r.allotment = none) ∧
          ∀ k m, s.Decides w.card w.snap line (.accept k) m →
            r.outcome = .verdict k.code ∧ r.ridesAfter = k.rides ∧
            r.charge = (k.value.map fun v => (k.fare, v.balance, v.daily)) ∧
            (k.allot = none → r.allotment = none) ∧
            ∀ token a, k.allot = some token → s.allotOf token = some a →
              r.allotment = some (k.seats, a.remaining, a.held, a.passed)) ∧
      ∀ c, w.requester = .channel c → w.withdrawn = false →
        (t.port c).outstanding = none ∧
        ((s.port c).outstanding ≠ none → (s.port c).sending = none →
          (t.port c).sending = some (.verdict ⟨match w.mark with
            | .notBoarding => .notBoarding
            | .egress => .egress
            | .none => if w.card.dataOk then .denied else .badCard,
            0, w.card.value.map ValuePart.balance, none⟩))) ∧
    ∀ c, w.requester = .channel c → w.withdrawn = false → w.mark = .none →
      (s.Decides w.card w.snap (s.lineOf c) .deniedBlock false →
        ∃ t, exec .validationCompletion s = .next t ∧
          t = { s with
            engine := { s.engine with
              work := t.engine.work
              nextTag := if s.engine.nextTag = 65535 then 1 else s.engine.nextTag + 1 }
            notices := t.notices
            arbiter := t.arbiter
            channels := t.channels
            ports := t.ports } ∧
          s.GatesKept t ∧ (t.port c).outstanding = none ∧
          ((s.port c).outstanding ≠ none → (t.port c).awaited = some ⟨s.engine.nextTag, 1000⟩ ∧
            ((s.port c).sending = none → (t.port c).sending = some (.verdict
              ⟨.denied, 0, w.card.value.map ValuePart.balance,
                some ⟨s.engine.nextTag, none, none, none, true⟩⟩)))) ∧
      ∀ (code : VerdictCode) (m : Bool) (nextTag : Nat) (notes : PerChan (Option WriteNote)),
        (s.RefusesCard w.card w.snap (s.lineOf c) code m ∧ nextTag = s.engine.nextTag ∧
            notes = s.engine.notes ∨
          (∃ k clock, s.AcceptsCard w.card w.snap (s.lineOf c) k clock m ∧ s.RefusesAtCompletion c code) ∧
            nextTag = s.engine.nextTag ∧ notes = s.engine.notes ∨
          (∃ b k clock, s.AcceptsCard w.card w.snap (s.lineOf c) k clock m ∧ s.ReadyFor c b ∧ code = .full ∧
            (3 ≤ (s.claimsOf c).count ∨ ∀ n, ¬s.Grants b k.seats k.partialOk n) ∧
            (k.writes = true → nextTag = (if s.engine.nextTag = 65535 then 1 else s.engine.nextTag + 1) ∧
              notes = s.engine.notes.set c (some ⟨s.engine.nextTag, k.charge⟩)) ∧
            (k.writes = false → nextTag = s.engine.nextTag ∧ notes = s.engine.notes))) →
        ∃ t, exec .validationCompletion s = .next t ∧
          t = { s with
            engine := { s.engine with
              work := t.engine.work
              journey := t.engine.journey
              nextTag := nextTag
              notes := notes }
            notices := t.notices
            arbiter := t.arbiter
            channels := t.channels
            ports := t.ports } ∧
          s.GatesKept t ∧ s.Answers t c w.card code ∧ s.JourneyResolved t w.card.id m

/-- The completion of a card that stages 1 to 8 accept, or that they refer with the host SILENT or both slots
held and its fallback accepts, on a channel whose call takes boardings and with room for its seats, or for
some of them where the request may be partial. A fallback's write-back bears the clock as it stands
(assumption 9), and its seats for a spent allotment the block size of the take (assumption 26; 1 for a card
that is no token, assumption 13). With a write-back: a tag is drawn
and noted with its charge, a provisional claim is granted, an allotment's seats go from remaining to held,
the write is awaited for 1 s, the presentation is answered, and HEADROOM is queued where the headroom went
to 0, then ALLOTMENT_SPENT where no seat of the allotment remains. A recovery or re-release writes nothing:
its claim is live, and its journey entry ADMITTED again. -/
def Obligations.AcceptedWorkTakesSeats : Prop :=
  ∀ (s : State) (w : Work) (c : Chan) (b : Berth) (k : Terms) (clock : Option ClockTime) (m : Bool)
    (n : Nat), s.power = .running →
    s.engine.work = some w → w.requester = .channel c → w.withdrawn = false → w.mark = .none →
    s.AcceptsCard w.card w.snap (s.lineOf c) k clock m → s.ReadyFor c b → (s.claimsOf c).count < 3 →
    s.Grants b k.seats k.partialOk n → (s.port c).outstanding ≠ none →
    ∃ t, exec .validationCompletion s = .next t ∧
      (t.port c).outstanding = none ∧ s.GatesKept t ∧
      (k.writes = true → k.reuse = false →
        t = { s with
          claims := s.claims.set c { s.claimsOf c with
            provisional := (s.claimsOf c).provisional ++
              [⟨b, k.kind, n, 0, if k.kind = .staff then none else some w.card.id, k.fare, k.allot,
                some s.engine.nextTag, s.uptimeSecs, 0⟩] }
          tables := { s.tables with allot := match k.allot with
            | none => s.tables.allot
            | some token => s.tables.allot.map fun a => if a.token = token then
                { a with remaining := a.remaining - n, held := a.held + n } else a }
          engine := { s.engine with
            work := t.engine.work
            journey := t.engine.journey
            nextTag := if s.engine.nextTag = 65535 then 1 else s.engine.nextTag + 1
            notes := s.engine.notes.set c (some ⟨s.engine.nextTag, k.charge⟩) }
          notices := t.notices
          arbiter := t.arbiter
          channels := t.channels
          ports := t.ports } ∧
        s.JourneyResolved t w.card.id m ∧
        (t.port c).awaited = some ⟨s.engine.nextTag, 1000⟩ ∧
        s.QueuesInOrder t
          ((if 0 < n ∧ s.headroom b = n then [.headroom b (s.call b).vessel false 0] else []) ++
          (match k.allot.bind s.allotOf with
            | none => []
            | some a => if a.remaining ≤ n then
                [.allotmentSpent a.token a.line a.total (a.held + n) a.passed c] else [])) ∧
        ((s.port c).sending = none → (t.port c).sending = some (.verdict
          ⟨k.code, k.fare, (match k.value with
            | some v => some v.balance
            | none => w.card.value.map ValuePart.balance),
            some ⟨s.engine.nextTag, k.value, k.rides,
              some ⟨(clock.getD ⟨0, 0⟩).day, (clock.getD ⟨0, 0⟩).secs, (s.call b).line,
                s.cfg.pierNumber, if k.value = none then 0 else k.fare, s.engine.nextTag⟩, false⟩⟩))) ∧
      (k = .reused →
        t = { s with
          claims := s.claims.set c { s.claimsOf c with
            live := (s.claimsOf c).live ++
              [⟨b, .free, 1, 0, some w.card.id, 0, none, none, s.uptimeSecs,
                if (s.claimsOf c).live = [] then s.cfg.passWindow.get c * 1000 else 0⟩] }
          engine := { s.engine with work := t.engine.work, journey := t.engine.journey }
          notices := t.notices
          arbiter := t.arbiter
          channels := t.channels
          ports := t.ports } ∧
        ((s.port c).sending = none → (t.port c).sending = some (.verdict
          ⟨.acceptFree, 0, w.card.value.map ValuePart.balance, none⟩)) ∧
        ∀ xs e ys, s.engine.journey = xs ++ e :: ys → e.card = w.card.id → (∀ y ∈ ys, y.card ≠ w.card.id) →
          t.engine.journey =
            xs ++ { e with outcome := .admitted, berth := b, line := (s.call b).line } :: ys)

/-- A case that stages 1 to 8 refer, with an empty slot and the host heard, is held in the first empty slot
under the counter's id for the time-out of the settings, with the block size its allotment had at the take
(assumption 26; 1 for a card that is no token, assumption 13), and its presentation stays outstanding;
raised into slot 0 with slot 1 held it is the younger of the two, and else slot 1 is not the older (the mark
of assumption 12). REFER_ANSWER naming a held case with verdict REFUSE answers it REFUSED_ONLINE and empties
the slot; ACCEPT, with the channel and its call ready, grants a free seat for an unknown product, an account
seat at the fare carried, and for a spent allotment seats of it as extended: the verdict carries that fare
and the last-boarding part to write with the clock at the answer, HEADROOM is queued where the headroom went
to 0, then ALLOTMENT_SPENT where no seat remains. A refusal of stage 9, or FULL
of stage 10, answers the case, and an extension stands (assumption 10). An id that no slot holds is LATE,
and fields out of range or that do not suit the cause are BAD_FIELD. -/
def Obligations.ReferralsAreRaisedAndAnswered : Prop :=
  ∀ s : State, s.power = .running →
    (∀ (w : Work) (c : Chan) (b : Berth) (cause : Cause) (m : Bool) (i : Slot),
      s.engine.work = some w → w.requester = .channel c → w.withdrawn = false → w.mark = .none →
      s.Decides w.card w.snap (s.lineOf c) (.refer cause) m → s.berthOf c = some b →
      s.bus.silent = false → s.slot i = none → (i = .s1 → s.slot .s0 ≠ none) →
      ∃ t, exec .validationCompletion s = .next t ∧
        t = { s with
          engine := { s.engine with
            work := t.engine.work
            journey := t.engine.journey
            slot0 := t.engine.slot0
            slot1 := t.engine.slot1
            slot1Older := decide (i = .s0) && (s.slot .s1).isSome
            nextReferral := if s.engine.nextReferral = 255 then 1 else s.engine.nextReferral + 1 }
          notices := t.notices
          arbiter := t.arbiter
          channels := t.channels
          ports := t.ports } ∧
        s.GatesKept t ∧ s.JourneyResolved t w.card.id m ∧
        (∀ block, s.BlockIs w.card w.snap block →
          ∀ j, t.slot j = if j = i then
            some ⟨s.engine.nextReferral, c, b, w.card, cause, block, false, s.cfg.referralTimeout⟩
            else s.slot j) ∧
        (s.arbiter.places.get c = none → (t.port c).outstanding = (s.port c).outstanding)) ∧
    (∀ id v fare extra, id = 0 ∨ v = none ∨ 5000 < fare ∨ 999 < extra →
      exec (.referAnswer .fits id v fare extra) s = .next { s with
        bus := s.repliedBus .referAnswer .part .badField .empty }) ∧
    (∀ id v fare extra, id ≠ 0 → fare ≤ 5000 → extra ≤ 999 →
      (∀ i r, s.slot i = some r → r.id ≠ id) →
      exec (.referAnswer .fits id (some v) fare extra) s = .next { s with
        bus := s.repliedBus .referAnswer .part .late .empty }) ∧
    ∀ (i : Slot) (r : Referral) (fare : Nat), s.slot i = some r → r.id ≠ 0 → fare ≤ 5000 →
      (i = .s1 → ∀ r', s.slot .s0 = some r' → r'.id ≠ r.id) →
      (∀ extra, extra ≤ 999 →
        ∃ t, exec (.referAnswer .fits r.id (some .refuse) fare extra) s = .next t ∧
          t = { s with
            bus := s.repliedBus .referAnswer .part .ok (.answered r.id .refusedOnline)
            engine := { s.engine with slot0 := t.engine.slot0, slot1 := t.engine.slot1 }
            notices := t.notices
            arbiter := t.arbiter
            channels := t.channels
            ports := t.ports } ∧
          s.ChannelsFollow t ∧ (∀ j, t.slot j = if j = i then none else s.slot j) ∧
          s.Answers t r.channel r.card .refusedOnline) ∧
      (∀ extra, extra ≤ 999 →
        (r.cause = .unknownProduct ∧ (fare ≠ 0 ∨ extra ≠ 0) ∨
          (∃ f p, r.cause = .account f p) ∧ extra ≠ 0 ∨
          (∃ x y, r.cause = .allotmentSpent x y) ∧
            (fare ≠ 0 ∨ extra = 0 ∨ ∃ a, s.allotOf r.card.id = some a ∧ 9999 < a.total + extra)) →
        exec (.referAnswer .fits r.id (some .accept) fare extra) s = .next { s with
          bus := s.repliedBus .referAnswer .part .badField .empty }) ∧
      ∀ (extra : Nat) (allot : List Allotment), extra ≤ 999 →
        ((r.cause = .unknownProduct ∧ fare = 0 ∨ ∃ f p, r.cause = .account f p) ∧ extra = 0 ∧
            allot = s.tables.allot ∨
          (∃ x y a, r.cause = .allotmentSpent x y ∧ fare = 0 ∧ 1 ≤ extra ∧ s.allotOf r.card.id = some a ∧
            a.total + extra ≤ 9999) ∧
            allot = s.tables.allot.map fun a => if a.token = r.card.id then
              { a with total := a.total + extra, remaining := a.remaining + extra } else a) →
        (∀ code, s.RefusesAtCompletion r.channel code →
          ∃ t, exec (.referAnswer .fits r.id (some .accept) fare extra) s = .next t ∧
            t = { s with
              bus := s.repliedBus .referAnswer .part .ok (.answered r.id code)
              tables := { s.tables with allot := allot }
              engine := { s.engine with slot0 := t.engine.slot0, slot1 := t.engine.slot1 }
              notices := t.notices
              arbiter := t.arbiter
              channels := t.channels
              ports := t.ports } ∧
            s.ChannelsFollow t ∧ (∀ j, t.slot j = if j = i then none else s.slot j) ∧
            s.Answers t r.channel r.card code) ∧
        (∀ (b : Berth) (charge : Charge), s.ReadyFor r.channel b →
          3 ≤ (s.claimsOf r.channel).count ∨
            s.headroom b = 0 ∧ ((∃ x y, r.cause = .allotmentSpent x y) → 1 ≤ r.block) →
          ((∃ f p, r.cause = .account f p) ∧ 0 < fare ∧ charge = .fare ∨
            ((∃ f p, r.cause = .account f p) → fare = 0) ∧ charge = .none) →
          ∃ t, exec (.referAnswer .fits r.id (some .accept) fare extra) s = .next t ∧
            t = { s with
              bus := s.repliedBus .referAnswer .part .ok (.answered r.id .full)
              tables := { s.tables with allot := allot }
              engine := { s.engine with
                slot0 := t.engine.slot0
                slot1 := t.engine.slot1
                nextTag := if s.engine.nextTag = 65535 then 1 else s.engine.nextTag + 1
                notes := s.engine.notes.set r.channel (some ⟨s.engine.nextTag, charge⟩) }
              notices := t.notices
              arbiter := t.arbiter
              channels := t.channels
              ports := t.ports } ∧
            s.ChannelsFollow t ∧ (∀ j, t.slot j = if j = i then none else s.slot j) ∧
            s.Answers t r.channel r.card .full) ∧
        ∀ (b : Berth) (kind : ClaimKind) (token : Option CardId) (n : Nat) (code : VerdictCode)
          (charge : Charge), s.ReadyFor r.channel b → (s.claimsOf r.channel).count < 3 → 1 ≤ s.headroom b →
          (s.port r.channel).outstanding ≠ none →
          (r.cause = .unknownProduct ∧ kind = .free ∧ n = 1 ∧ code = .acceptFree ∧ charge = .none ∧
              token = none ∨
            (∃ f p, r.cause = .account f p) ∧ kind = .account ∧ n = 1 ∧ code = .accept ∧
              charge = (if fare = 0 then .none else .fare) ∧ token = none ∨
            (∃ x y a, r.cause = .allotmentSpent x y ∧ s.allotOf r.card.id = some a ∧
              n = min (min (a.remaining + extra) r.block) (s.headroom b)) ∧
              kind = .allotment ∧ code = .acceptFree ∧ charge = .none ∧ token = some r.card.id) →
          ∃ t, exec (.referAnswer .fits r.id (some .accept) fare extra) s = .next t ∧
            t = { s with
              bus := s.repliedBus .referAnswer .part .ok (.answered r.id code)
              claims := s.claims.set r.channel { s.claimsOf r.channel with
                provisional := (s.claimsOf r.channel).provisional ++
                  [⟨b, kind, n, 0, some r.card.id, fare, token, some s.engine.nextTag, s.uptimeSecs, 0⟩] }
              tables := { s.tables with allot := match token with
                | none => allot
                | some token => allot.map fun a => if a.token = token then
                    { a with remaining := a.remaining - n, held := a.held + n } else a }
              engine := { s.engine with
                slot0 := t.engine.slot0
                slot1 := t.engine.slot1
                nextTag := if s.engine.nextTag = 65535 then 1 else s.engine.nextTag + 1
                notes := s.engine.notes.set r.channel (some ⟨s.engine.nextTag, charge⟩) }
              notices := t.notices
              arbiter := t.arbiter
              channels := t.channels
              ports := t.ports } ∧
            s.ChannelsFollow t ∧ (∀ j, t.slot j = if j = i then none else s.slot j) ∧
            s.AnswersWithWrite t r.channel b r.card code fare ∧
            s.QueuesInOrder t
              ((if 0 < n ∧ s.headroom b = n then [.headroom b (s.call b).vessel false 0] else []) ++
              (match token.bind s.allotOf with
                | none => []
                | some a => if a.remaining + extra ≤ n then
                    [.allotmentSpent a.token a.line (a.total + extra) (a.held + n) a.passed r.channel] else []))

/-- A held case whose referral timer runs out, and one that a REFER_ANSWER leaves UNDECIDED, is decided by
the fallback of its cause: REFUSE answers with the cause's verdict; ACCEPT answers with the refusal of stage
9, or with FULL where the channel holds 3 claims or the call has no headroom, and else, with the channel and
its call ready, grants a free or an account seat at fare 0, and for a spent allotment as many free seats as
the block size held with the case (assumption 26), or the headroom, with the verdict at fare 0, its
last-boarding part to write, and HEADROOM queued where the headroom went to 0. The supervision timer's run-out
with SILENT clear sets SILENT, reports the lapse and resolves each held slot by its fallback in the same way,
slot 0 before slot 1, so that slot 1 finds the claims and the tag that slot 0 left; HEADROOM stands behind the
lapse, berth 0 before berth 1 (the model's choice, assumption 27). A fallback's write bears the clock as it
then stands (assumption 9). -/
def Obligations.ReferralsFallBack : Prop :=
  ∀ s : State, s.power = .running →
    (∀ (i : Slot) (r : Referral) (instr : Instr) (bus : VerdictCode → Bus), s.slot i = some r →
      (instr = .referralTimerExpiry i ∧ r.left = 0 ∧ bus = (fun _ => s.bus) ∨
        (∃ fare extra, instr = .referAnswer .fits r.id (some .undecided) fare extra ∧ fare ≤ 5000 ∧
          extra ≤ 999) ∧ r.id ≠ 0 ∧ (i = .s1 → ∀ r', s.slot .s0 = some r' → r'.id ≠ r.id) ∧
          bus = fun code => s.repliedBus .referAnswer .part .ok (.answered r.id code)) →
      (∀ code,
        (r.cause = .unknownProduct ∧ s.cfg.fallbackUnknown = .refuse ∧ code = .unknownProduct ∨
          (∃ f p, r.cause = .account f p) ∧ s.cfg.fallbackAccount = .refuse ∧ code = .refusedOnline ∨
          (∃ x y, r.cause = .allotmentSpent x y) ∧ s.cfg.fallbackSpent = .refuse ∧
            code = VerdictCode.spent ∨
          s.FallbackIs .accept r.cause ∧ s.RefusesAtCompletion r.channel code) →
        ∃ t, exec instr s = .next t ∧
          t = { s with
            bus := bus code
            engine := { s.engine with slot0 := t.engine.slot0, slot1 := t.engine.slot1 }
            notices := t.notices
            arbiter := t.arbiter
            channels := t.channels
            ports := t.ports } ∧
          s.ChannelsFollow t ∧ (∀ j, t.slot j = if j = i then none else s.slot j) ∧
          s.Answers t r.channel r.card code) ∧
      (∀ b, s.FallbackIs .accept r.cause → s.ReadyFor r.channel b →
        3 ≤ (s.claimsOf r.channel).count ∨
          s.headroom b = 0 ∧ ((∃ x y, r.cause = .allotmentSpent x y) → 1 ≤ r.block) →
        ∃ t, exec instr s = .next t ∧
          t = { s with
            bus := bus .full
            engine := { s.engine with
              slot0 := t.engine.slot0
              slot1 := t.engine.slot1
              nextTag := if s.engine.nextTag = 65535 then 1 else s.engine.nextTag + 1
              notes := s.engine.notes.set r.channel (some ⟨s.engine.nextTag, .none⟩) }
            notices := t.notices
            arbiter := t.arbiter
            channels := t.channels
            ports := t.ports } ∧
          s.ChannelsFollow t ∧ (∀ j, t.slot j = if j = i then none else s.slot j) ∧
          s.Answers t r.channel r.card .full) ∧
      ∀ b kind n code,
        (r.cause = .unknownProduct ∧ s.cfg.fallbackUnknown = .accept ∧ kind = .free ∧ n = 1 ∧
            code = .acceptFree ∨
          (∃ f p, r.cause = .account f p) ∧ s.cfg.fallbackAccount = .accept ∧ kind = ClaimKind.account ∧
            n = 1 ∧ code = .accept ∨
          (∃ x y, r.cause = .allotmentSpent x y) ∧ s.cfg.fallbackSpent = .accept ∧ kind = .free ∧
            n = min r.block (s.headroom b) ∧ code = VerdictCode.acceptFree) →
        s.ReadyFor r.channel b → (s.claimsOf r.channel).count < 3 → 1 ≤ s.headroom b →
        (s.port r.channel).outstanding ≠ none →
        ∃ t, exec instr s = .next t ∧
          t = { s with
            bus := bus code
            claims := s.claims.set r.channel { s.claimsOf r.channel with
              provisional := (s.claimsOf r.channel).provisional ++
                [⟨b, kind, n, 0, some r.card.id, 0, none, some s.engine.nextTag, s.uptimeSecs, 0⟩] }
            engine := { s.engine with
              slot0 := t.engine.slot0
              slot1 := t.engine.slot1
              nextTag := if s.engine.nextTag = 65535 then 1 else s.engine.nextTag + 1
              notes := s.engine.notes.set r.channel (some ⟨s.engine.nextTag, .none⟩) }
            notices := t.notices
            arbiter := t.arbiter
            channels := t.channels
            ports := t.ports } ∧
          s.ChannelsFollow t ∧ (∀ j, t.slot j = if j = i then none else s.slot j) ∧
          s.AnswersWithWrite t r.channel b r.card code 0 ∧
          s.QueuesInOrder t
            (if 0 < n ∧ s.headroom b = n then [.headroom b (s.call b).vessel false 0] else [])) ∧
    (s.bus.supervision = some 0 → s.bus.silent = false →
      ∃ t u v, exec .supervisionTimerExpiry s = .next t ∧
        { s with engine := { s.engine with slot0 := none, slot1 := none } }.SlotFallsBack u (s.slot .s0) ∧
        u.SlotFallsBack v (s.slot .s1) ∧
        t = { s with
          bus := { s.bus with supervision := none, silent := true }
          claims := v.claims
          engine := { s.engine with
            slot0 := none
            slot1 := none
            nextTag := v.engine.nextTag
            notes := v.engine.notes }
          notices := t.notices
          arbiter := t.arbiter
          channels := t.channels
          ports := t.ports } ∧
        s.ChannelsFollow t ∧
        (∀ c, (t.port c).awaited = (v.port c).awaited ∧
          ((t.port c).outstanding = (v.port c).outstanding ∨ (t.port c).outstanding = none) ∧
          ((v.port c).sending ≠ none → (t.port c).sending = (v.port c).sending)) ∧
        (s.slot .s0 = none → s.slot .s1 = none → t.claims = s.claims ∧ t.engine = s.engine) ∧
        (∀ j r, s.slot j = some r → (t.port r.channel).outstanding = none) ∧
        s.QueuesInOrder t (.supervisionLapse (s.uptime / 1000) s.bus.period ::
          (s.headroomNotice t .b0 ++ s.headroomNotice t .b1)))

/-! ### Reader lines -/

/-- A PRESENT on a line that is UP. With nothing held there and the engine BUSY, the card is outstanding,
and takes the channel's place in the pending set or is refused at arrival; with the engine FREE and nothing
else pending the engine takes it, with the tables and the clock as they stand. Over an earlier presentation,
that one is withdrawn first, its referral slot falls empty, and with the engine FREE the new one is taken,
or waits behind 3 claims; over an awaited write, that one ends with outcome unknown first. A WITHDRAW of the
outstanding card empties the line, the place, the engine's interest in it and its referral slot; a WITHDRAW
of another card only restarts the inactivity timer. -/
def Obligations.PresentAndWithdraw : Prop :=
  ∀ (s : State) (c : Chan) (body : List Octet), s.power = .running → (s.port c).line = .up →
    (∀ card, Card.parse body = some card → (s.port c).outstanding = none → (s.port c).awaited = none →
      s.engine.work ≠ none →
      ∃ t, exec (.present c body) s = .next t ∧
        t = { s with
          notices := t.notices
          arbiter := t.arbiter
          channels := t.channels
          ports := t.ports } ∧
        (s.setPort c { s.port c with receiver := .hunting false, inactivity := some 3000 }).GatesKept t ∧
        (Safety.ChannelsDerived s → s.arrivalRefusal c = none →
          t = { s with
            arbiter := { s.arbiter with places := s.arbiter.places.set c (some ⟨card, s.uptime⟩) }
            channels := t.channels
            ports := s.ports.set c { s.port c with
              receiver := .hunting false
              inactivity := some 3000
              outstanding := some card } } ∧
          ∀ d, (t.chan d).state = (s.chan d).state ∧ (t.chan d).modeShown = (s.chan d).modeShown ∧
            (t.chan d).tallies = (s.chan d).tallies) ∧
        ∀ code,
          ((s.chan c).state = .egressHeld ∧ code = .egress ∨
            (s.chan c).state = .suspended ∧ code = .gangwayClosed ∨
            (s.chan c).state = .outOfService ∧ code = .notServed ∨
            ((s.chan c).state = .closed ∨ (s.chan c).state = .exitFree) ∧ code = .notBoarding ∨
            ((s.chan c).state = .released ∨ (s.chan c).state = .admitting) ∧
              ((s.chan c).service = .outOfService ∨ s.cfg.level.get c = 0) ∧ code = .notServed ∨
            ((s.chan c).state = .released ∨ (s.chan c).state = .admitting) ∧
              (s.chan c).service = .inService ∧ s.cfg.level.get c ≠ 0 ∧
              (∃ b, s.berthOf c = some b ∧ (s.call b).state = .lastCall) ∧
              s.cfg.level.get c ≤ s.cfg.lastCallLevel ∧ code = VerdictCode.notBoarding) →
          (t.port c).outstanding = none ∧
          (s.arbiter.places.get c = none → t.arbiter.places.get c = none) ∧
          ((s.port c).sending = none → (t.port c).sending = some (.verdict
            ⟨code, 0, card.value.map ValuePart.balance, none⟩))) ∧
    (∀ card, Card.parse body = some card → (s.port c).awaited = none → Safety.ChannelsDerived s →
      s.arrivalRefusal c = none →
      ((s.port c).outstanding = none → s.engine.work = none → (∀ d, s.arbiter.places.get d = none) →
        s.arbiter.desk = none → (s.claimsOf c).count < 3 →
        ∃ t, exec (.present c body) s = .next t ∧
          t = { s with
            engine := { s.engine with work := some ⟨.channel c, card,
              ⟨s.tables.product, s.tables.active, s.tables.deny.entries, s.clock, s.tables.allot⟩,
              false, .none⟩ }
            channels := t.channels
            ports := s.ports.set c { s.port c with
              receiver := .hunting false
              inactivity := some 3000
              outstanding := some card } } ∧
          ∀ d, (t.chan d).state = (s.chan d).state ∧ (t.chan d).modeShown = (s.chan d).modeShown ∧
            (t.chan d).tallies = if d = c then { (s.chan c).tallies with
              taken := min ((s.chan c).tallies.taken + 1) 65535 } else (s.chan d).tallies) ∧
      ((s.port c).outstanding ≠ none → s.engine.work = none → Safety.FreeEngineIdle s →
        ∃ t, exec (.present c body) s = .next t ∧
          t = { s with
            arbiter := { s.arbiter with
              places := s.arbiter.places.set c
                (if (s.claimsOf c).count < 3 then none else some ⟨card, s.uptime⟩) }
            engine := { s.engine with
              work := if (s.claimsOf c).count < 3 then some ⟨.channel c, card,
                ⟨s.tables.product, s.tables.active, s.tables.deny.entries, s.clock, s.tables.allot⟩,
                false, .none⟩ else none
              slot0 := s.engine.slot0.filter fun r => r.channel ≠ c
              slot1 := s.engine.slot1.filter fun r => r.channel ≠ c }
            channels := t.channels
            ports := s.ports.set c { s.port c with
              receiver := .hunting false
              inactivity := some 3000
              outstanding := some card } } ∧
          ∀ d, (t.chan d).state = (s.chan d).state ∧ (t.chan d).modeShown = (s.chan d).modeShown ∧
            (t.chan d).tallies = if d = c ∧ (s.claimsOf c).count < 3 then { (s.chan c).tallies with
              taken := min ((s.chan c).tallies.taken + 1) 65535 } else (s.chan d).tallies) ∧
      ((s.port c).outstanding ≠ none → s.engine.work ≠ none →
        ∃ t, exec (.present c body) s = .next t ∧
          t = { s with
            arbiter := { s.arbiter with places := s.arbiter.places.set c (some ⟨card, s.uptime⟩) }
            engine := { s.engine with
              work := s.engine.work.map fun w =>
                if w.requester = .channel c then { w with withdrawn := true } else w
              slot0 := s.engine.slot0.filter fun r => r.channel ≠ c
              slot1 := s.engine.slot1.filter fun r => r.channel ≠ c }
            channels := t.channels
            ports := s.ports.set c { s.port c with
              receiver := .hunting false
              inactivity := some 3000
              outstanding := some card } } ∧
          ∀ d, (t.chan d).state = (s.chan d).state ∧ (t.chan d).modeShown = (s.chan d).modeShown ∧
            (t.chan d).tallies = (s.chan d).tallies)) ∧
    (∀ card w xs k ys, Card.parse body = some card → (s.port c).outstanding = none →
      (s.port c).awaited = some w → (s.claimsOf c).provisional = xs ++ k :: ys →
      (∀ x ∈ xs, x.tag ≠ some w.tag) → k.tag = some w.tag →
      Safety.ChannelsDerived s → s.arrivalRefusal c = none → s.engine.work ≠ none →
      ∃ t, exec (.present c body) s = .next t ∧
        t = { s with
          claims := s.claims.set c { s.claimsOf c with provisional := xs ++ ys }
          tables := { s.tables with allot := allotReturned s.tables.allot k }
          engine := { s.engine with journey := s.journeyUnknown c s.engine.journey k }
          notices := t.notices
          arbiter := { s.arbiter with places := s.arbiter.places.set c (some ⟨card, s.uptime⟩) }
          channels := t.channels
          ports := t.ports } ∧
        (t.port c).outstanding = some card ∧ (t.port c).awaited = none ∧
        ∀ d, (t.chan d).state = (s.chan d).state ∧ (t.chan d).tallies = (s.chan d).tallies) ∧
    ∀ (id : CardId) (card : Card), withdrawCard body = some id → (s.port c).outstanding = some card →
      (card.id ≠ id → exec (.withdraw c body) s = .next { s with
        ports := s.ports.set c { s.port c with receiver := .hunting false, inactivity := some 3000 } }) ∧
      (card.id = id → exec (.withdraw c body) s = .next { s with
        ports := s.ports.set c { s.port c with
          receiver := .hunting false
          inactivity := some 3000
          outstanding := none }
        arbiter := { s.arbiter with places := s.arbiter.places.set c none }
        engine := { s.engine with
          work := s.engine.work.map fun w =>
            if w.requester = .channel c then { w with withdrawn := true } else w
          slot0 := s.engine.slot0.filter fun r => r.channel ≠ c
          slot1 := s.engine.slot1.filter fun r => r.channel ≠ c } })

/-- The end of an awaited write. A WRITE_RESULT with its tag: OK makes the provisional claim live, counts
its fare and writes an ADMITTED journey entry; FAILED takes the claim away and gives its seats back. The
write timer's run-out takes the claim away, gives its seats back and writes an UNCERTAIN entry. Where no
provisional claim has the tag either ends the awaited write and counts nothing, writes no entry and moves no
claim. A WRITE_RESULT with another tag only restarts the inactivity timer. -/
def Obligations.WritesEnd : Prop :=
  ∀ (s : State) (c : Chan) (w : AwaitedWrite), s.power = .running → (s.port c).awaited = some w →
    (∀ body tag ok, (s.port c).line = .up → writeResultOf body = some (tag, ok) → tag ≠ w.tag →
      exec (.writeResult c body) s = .next { s with
        ports := s.ports.set c { s.port c with receiver := .hunting false, inactivity := some 3000 } }) ∧
    (∀ (i : Instr) (p : Port), (∀ x ∈ (s.claimsOf c).provisional, x.tag ≠ some w.tag) →
      ((∃ body ok, i = .writeResult c body ∧ (s.port c).line = .up ∧ writeResultOf body = some (w.tag, ok) ∧
          p = { s.port c with receiver := .hunting false, inactivity := some 3000 }) ∨
        i = .writeTimerExpiry c ∧ w.left = 0 ∧ p = s.port c) →
      ∃ t, exec i s = .next t ∧
        t = { s with
          engine := { s.engine with work := t.engine.work }
          notices := t.notices
          arbiter := t.arbiter
          channels := t.channels
          ports := t.ports } ∧
        (s.setPort c p).GatesKept t ∧ (t.port c).awaited = none ∧
        (Safety.ChannelsDerived s → t.notices = s.notices)) ∧
    ∀ (xs ys : List Claim) (k : Claim), (s.claimsOf c).provisional = xs ++ k :: ys →
      (∀ x ∈ xs, x.tag ≠ some w.tag) → k.tag = some w.tag →
      ∀ (allot : List Allotment) (entry : JourneyOutcome → List JourneyEntry),
        (allot = match k.allot with
          | none => s.tables.allot
          | some token => s.tables.allot.map fun a => if a.token = token then
              { a with
                remaining := a.remaining + (k.granted - k.passed)
                held := a.held - (k.granted - k.passed) } else a) →
        (entry = fun outcome => match k.card with
          | none => s.engine.journey
          | some id => (if s.engine.journey.length < 256 then s.engine.journey
              else s.engine.journey.drop 1) ++
            [⟨id, s.uptime, k.berth, (s.call k.berth).line, outcome, k.fare, s.chargeFor c w.tag, w.tag⟩]) →
      (∀ body, (s.port c).line = .up → writeResultOf body = some (w.tag, true) →
        ∃ t, exec (.writeResult c body) s = .next t ∧
          t = { s with
            calls := s.calls.set k.berth (if k.kind = .account
              then { s.call k.berth with
                accountFares := min ((s.call k.berth).accountFares + k.fare) 4294967295 }
              else { s.call k.berth with fares := min ((s.call k.berth).fares + k.fare) 4294967295 })
            claims := s.claims.set c ⟨(s.claimsOf c).live ++
              [{ k with window := if (s.claimsOf c).live = [] then s.cfg.passWindow.get c * 1000 else 0 }],
              xs ++ ys⟩
            engine := { s.engine with work := t.engine.work, journey := entry .admitted }
            notices := t.notices
            arbiter := t.arbiter
            channels := t.channels
            ports := t.ports } ∧
          (s.setPort c { s.port c with receiver := .hunting false, inactivity := some 3000 }).GatesKept t ∧
          (t.port c).awaited = none) ∧
      (∀ body, (s.port c).line = .up → writeResultOf body = some (w.tag, false) →
        ∃ t, exec (.writeResult c body) s = .next t ∧
          t = { s with
            claims := s.claims.set c { s.claimsOf c with provisional := xs ++ ys }
            tables := { s.tables with allot := allot }
            engine := { s.engine with work := t.engine.work }
            notices := t.notices
            arbiter := t.arbiter
            channels := t.channels
            ports := t.ports } ∧
          (s.setPort c { s.port c with receiver := .hunting false, inactivity := some 3000 }).GatesKept t ∧
          (t.port c).awaited = none) ∧
      (w.left = 0 → ∃ t, exec (.writeTimerExpiry c) s = .next t ∧
        t = { s with
          claims := s.claims.set c { s.claimsOf c with provisional := xs ++ ys }
          tables := { s.tables with allot := allot }
          engine := { s.engine with work := t.engine.work, journey := entry .uncertain }
          notices := t.notices
          arbiter := t.arbiter
          channels := t.channels
          ports := t.ports } ∧
        s.GatesKept t ∧ (t.port c).awaited = none)

/-- A valid frame of a reader whose line is DOWN starts attachment and is itself discarded: a SETUP with the
channel, the pier and the mode computed now, the inactivity timer of 3 s and the attach timer of 1 s. In
ATTACHING and UP an ALIVE and a frame discarded for its kind or its record only restart the inactivity timer.
A damaged frame restarts nothing. The attach timer's run-out sends SETUP again. A frame sent lets the next
record waiting go out, and the refusals tally rises when a refusal begins to go out, which is the model's
deduction from "sent" in R69 (assumption 19). -/
def Obligations.ReaderFramesAreHeard : Prop :=
  ∀ (s : State) (c : Chan), s.power = .running →
    exec (.readerFrameDiscarded c .damaged) s = .next { s with
      ports := s.ports.set c { s.port c with receiver := .hunting false } } ∧
    (∀ i, (s.port c).line ≠ .down →
      i = .alive c ∨ i = .readerFrameDiscarded c .wrongKind ∨ i = .readerFrameDiscarded c .malformed →
      exec i s = .next { s with
        ports := s.ports.set c { s.port c with receiver := .hunting false, inactivity := some 3000 } }) ∧
    (∀ (i : Instr) (p : Port),
      ((s.port c).line = .down ∧
          (i = .alive c ∨ i = .ready c ∨ i = .readerFrameDiscarded c .wrongKind ∨
            i = .readerFrameDiscarded c .malformed ∨ (∃ body, i = .present c body) ∨
            (∃ body, i = .withdraw c body) ∨ ∃ body, i = .writeResult c body) ∧
          p = { s.port c with
            receiver := .hunting false
            line := .attaching
            inactivity := some 3000
            attach := some 1000 } ∨
        i = .attachTimerExpiry c ∧ (s.port c).line = .attaching ∧ (s.port c).attach = some 0 ∧
          p = { s.port c with attach := some 1000 }) →
      ∀ setup, setup = ReaderRecord.setup c.num s.cfg.pierNumber (s.displayMode c) →
      exec i s = .next { s with
        channels := s.channels.set c { s.chan c with modeShown := some (s.displayMode c) }
        ports := s.ports.set c (if (s.port c).sending = none then { p with sending := some setup }
          else { p with waiting := (s.port c).waiting ++ [setup] }) }) ∧
    ∀ r, (s.port c).sending = some r →
      ((s.port c).waiting = [] → exec (.readerFrameSent c) s = .next { s with
        ports := s.ports.set c { s.port c with sending := none } }) ∧
      ∀ n ns, (s.port c).waiting = n :: ns →
        exec (.readerFrameSent c) s = .next { s with
          ports := s.ports.set c { s.port c with sending := some n, waiting := ns }
          channels := s.channels.set c { s.chan c with tallies := { (s.chan c).tallies with
            refusals := match n with
              | .verdict v => if v.code = .accept ∨ v.code = .acceptFree then (s.chan c).tallies.refusals
                  else min ((s.chan c).tallies.refusals + 1) 65535
              | _ => (s.chan c).tallies.refusals } } }

/-- READY in ATTACHING brings the line UP with its mode shown; READY in UP attaches the reader anew, and the
inactivity timer's run-out takes the line DOWN and reports it. Either withdraws the presentation and ends
the awaited write with its outcome unknown: the write's claim goes, its unpassed seats go back to its
allotment, and it leaves an UNCERTAIN entry; engine work for the presentation is marked withdrawn. Attaching
anew discards the VERDICT and MODE records waiting, keeps a SETUP waiting, and sends a SETUP with the mode
then computed; a line DOWN has nothing left to send but the frame going out. Neither changes a call. -/
def Obligations.ReaderLinesComeAndGo : Prop :=
  ∀ (s : State) (c : Chan), s.power = .running →
    ((s.port c).line = .attaching → ∃ t, exec (.ready c) s = .next t ∧
      t = { s with
        notices := t.notices
        arbiter := t.arbiter
        channels := t.channels
        ports := t.ports } ∧
      (s.setPort c { s.port c with
        receiver := .hunting false
        line := .up
        inactivity := some 3000
        attach := none }).ChannelsFollow t ∧
      (t.chan c).modeShown = some (t.displayMode c)) ∧
    ∀ (i : Instr) (line : LineState),
      (i = .ready c ∧ (s.port c).line = .up ∧ line = .attaching ∨
        i = .readerInactivityExpiry c ∧ (s.port c).line ≠ .down ∧ (s.port c).inactivity = some 0 ∧
          line = .down) →
      ∃ t, exec i s = .next t ∧
        t = { s with
          claims := t.claims
          tables := { s.tables with allot := t.tables.allot }
          engine := { s.engine with
            work := t.engine.work
            journey := t.engine.journey
            slot0 := t.engine.slot0
            slot1 := t.engine.slot1 }
          notices := t.notices
          arbiter := t.arbiter
          channels := t.channels
          ports := t.ports } ∧
        (t.port c).line = line ∧ (t.port c).outstanding = none ∧ (t.port c).awaited = none ∧
        (t.port c).inactivity = (if line = .down then none else some 3000) ∧
        (t.port c).attach = (if line = .down then none else some 1000) ∧
        (∀ d, d ≠ c → t.claimsOf d = s.claimsOf d ∧ (s.port d).SameLine (t.port d)) ∧
        (∀ d, (s.chan d).SameGate (t.chan d)) ∧
        (t.claimsOf c).live = (s.claimsOf c).live ∧
        (∀ w, (s.port c).awaited = some w → ∀ xs k ys, (s.claimsOf c).provisional = xs ++ k :: ys →
          (∀ x ∈ xs, x.tag ≠ some w.tag) → k.tag = some w.tag →
          (t.claimsOf c).provisional = xs ++ ys ∧ t.tables.allot = allotReturned s.tables.allot k ∧
          t.engine.journey = s.journeyUnknown c s.engine.journey k) ∧
        ((∀ w, (s.port c).awaited = some w → ∀ k ∈ (s.claimsOf c).provisional, k.tag ≠ some w.tag) →
          t.claims = s.claims ∧ t.tables = s.tables ∧ t.engine.journey = s.engine.journey) ∧
        ((s.port c).outstanding ≠ none → ∀ j r, t.slot j = some r → r.channel ≠ c) ∧
        (∀ w, s.engine.work = some w → t.engine.work = some
          { w with withdrawn := w.withdrawn ||
            ((s.port c).outstanding.isSome && decide (w.requester = .channel c)) }) ∧
        (line = .attaching → (t.chan c).modeShown = some (t.displayMode c) ∧
          ∀ (setup : ReaderRecord) (kept : List ReaderRecord),
            setup = .setup c.num s.cfg.pierNumber (t.displayMode c) →
            kept = (s.port c).waiting.filter (fun r => match r with
              | .setup .. => true
              | _ => false) →
            ((s.port c).sending = none → (t.port c).sending = some setup ∧ (t.port c).waiting = kept) ∧
            ((s.port c).sending ≠ none → (t.port c).sending = (s.port c).sending ∧
              (t.port c).waiting = kept ++ [setup])) ∧
        (line = .down → (t.port c).sending = (s.port c).sending) ∧
        (line = .down → (t.port c).waiting = [] ∧
          s.QueuesFirst t (.readerLost c (s.port c).line (s.port c).outstanding.isSome
            ((s.port c).awaited.map AwaitedWrite.tag)))
end

