-- ==== Sys2Proof/Laws/State.lean ====
section
/-! SUPPORT. What each update of the state leaves, field by field, and what reading after it gives. -/

namespace Sys2Proof

namespace PerChan

variable {α : Type}

@[simp] theorem get_set (p : PerChan α) (c d : Chan) (v : α) :
    (p.set c v).get d = if d = c then v else p.get d := by
  cases c <;> cases d <;> rfl

@[simp] theorem get_same (v : α) (c : Chan) : (PerChan.same v).get c = v := by cases c <;> rfl

@[simp] theorem get_of (f : Chan → α) (c : Chan) : (PerChan.of f).get c = f c := by cases c <;> rfl

theorem ext_get {p q : PerChan α} (h : ∀ c, p.get c = q.get c) : p = q := by
  have h0 := h .c0
  have h1 := h .c1
  have h2 := h .c2
  have h3 := h .c3
  cases p
  cases q
  simp_all [get]

end PerChan

namespace PerBerth

variable {α : Type}

@[simp] theorem get_set (p : PerBerth α) (b d : Berth) (v : α) :
    (p.set b v).get d = if d = b then v else p.get d := by
  cases b <;> cases d <;> rfl

@[simp] theorem get_same (v : α) (b : Berth) : (PerBerth.same v).get b = v := by cases b <;> rfl

theorem ext_get {p q : PerBerth α} (h : ∀ b, p.get b = q.get b) : p = q := by
  have h0 := h .b0
  have h1 := h .b1
  cases p
  cases q
  simp_all [get]

end PerBerth

namespace Machine.State

/-! ### setCall -/

@[simp] theorem setCall_power (s : State) (b : Berth) (k : Call) : (s.setCall b k).power = s.power := rfl
@[simp] theorem setCall_bus (s : State) (b : Berth) (k : Call) : (s.setCall b k).bus = s.bus := rfl
@[simp] theorem setCall_notices (s : State) (b : Berth) (k : Call) : (s.setCall b k).notices = s.notices := rfl
@[simp] theorem setCall_layout (s : State) (b : Berth) (k : Call) : (s.setCall b k).layout = s.layout := rfl
@[simp] theorem setCall_uptime (s : State) (b : Berth) (k : Call) : (s.setCall b k).uptime = s.uptime := rfl
@[simp] theorem setCall_clock (s : State) (b : Berth) (k : Call) : (s.setCall b k).clock = s.clock := rfl
@[simp] theorem setCall_clockPhase (s : State) (b : Berth) (k : Call) : (s.setCall b k).clockPhase = s.clockPhase := rfl
@[simp] theorem setCall_callTimers (s : State) (b : Berth) (k : Call) : (s.setCall b k).callTimers = s.callTimers := rfl
@[simp] theorem setCall_reportTimer (s : State) (b : Berth) (k : Call) : (s.setCall b k).reportTimer = s.reportTimer := rfl
@[simp] theorem setCall_claims (s : State) (b : Berth) (k : Call) : (s.setCall b k).claims = s.claims := rfl
@[simp] theorem setCall_channels (s : State) (b : Berth) (k : Call) : (s.setCall b k).channels = s.channels := rfl
@[simp] theorem setCall_ports (s : State) (b : Berth) (k : Call) : (s.setCall b k).ports = s.ports := rfl
@[simp] theorem setCall_arbiter (s : State) (b : Berth) (k : Call) : (s.setCall b k).arbiter = s.arbiter := rfl
@[simp] theorem setCall_engine (s : State) (b : Berth) (k : Call) : (s.setCall b k).engine = s.engine := rfl
@[simp] theorem setCall_tables (s : State) (b : Berth) (k : Call) : (s.setCall b k).tables = s.tables := rfl
@[simp] theorem setCall_egress (s : State) (b : Berth) (k : Call) : (s.setCall b k).egress = s.egress := rfl
@[simp] theorem setCall_settings (s : State) (b : Berth) (k : Call) : (s.setCall b k).settings = s.settings := rfl
@[simp] theorem setCall_pending (s : State) (b : Berth) (k : Call) : (s.setCall b k).pending = s.pending := rfl

/-! ### setTimers -/

@[simp] theorem setTimers_power (s : State) (b : Berth) (t : CallTimers) : (s.setTimers b t).power = s.power := rfl
@[simp] theorem setTimers_bus (s : State) (b : Berth) (t : CallTimers) : (s.setTimers b t).bus = s.bus := rfl
@[simp] theorem setTimers_notices (s : State) (b : Berth) (t : CallTimers) : (s.setTimers b t).notices = s.notices := rfl
@[simp] theorem setTimers_layout (s : State) (b : Berth) (t : CallTimers) : (s.setTimers b t).layout = s.layout := rfl
@[simp] theorem setTimers_uptime (s : State) (b : Berth) (t : CallTimers) : (s.setTimers b t).uptime = s.uptime := rfl
@[simp] theorem setTimers_clock (s : State) (b : Berth) (t : CallTimers) : (s.setTimers b t).clock = s.clock := rfl
@[simp] theorem setTimers_clockPhase (s : State) (b : Berth) (t : CallTimers) : (s.setTimers b t).clockPhase = s.clockPhase := rfl
@[simp] theorem setTimers_calls (s : State) (b : Berth) (t : CallTimers) : (s.setTimers b t).calls = s.calls := rfl
@[simp] theorem setTimers_reportTimer (s : State) (b : Berth) (t : CallTimers) : (s.setTimers b t).reportTimer = s.reportTimer := rfl
@[simp] theorem setTimers_claims (s : State) (b : Berth) (t : CallTimers) : (s.setTimers b t).claims = s.claims := rfl
@[simp] theorem setTimers_channels (s : State) (b : Berth) (t : CallTimers) : (s.setTimers b t).channels = s.channels := rfl
@[simp] theorem setTimers_ports (s : State) (b : Berth) (t : CallTimers) : (s.setTimers b t).ports = s.ports := rfl
@[simp] theorem setTimers_arbiter (s : State) (b : Berth) (t : CallTimers) : (s.setTimers b t).arbiter = s.arbiter := rfl
@[simp] theorem setTimers_engine (s : State) (b : Berth) (t : CallTimers) : (s.setTimers b t).engine = s.engine := rfl
@[simp] theorem setTimers_tables (s : State) (b : Berth) (t : CallTimers) : (s.setTimers b t).tables = s.tables := rfl
@[simp] theorem setTimers_egress (s : State) (b : Berth) (t : CallTimers) : (s.setTimers b t).egress = s.egress := rfl
@[simp] theorem setTimers_settings (s : State) (b : Berth) (t : CallTimers) : (s.setTimers b t).settings = s.settings := rfl
@[simp] theorem setTimers_pending (s : State) (b : Berth) (t : CallTimers) : (s.setTimers b t).pending = s.pending := rfl

/-! ### setClaims -/

@[simp] theorem setClaims_power (s : State) (c : Chan) (k : ChannelClaims) : (s.setClaims c k).power = s.power := rfl
@[simp] theorem setClaims_bus (s : State) (c : Chan) (k : ChannelClaims) : (s.setClaims c k).bus = s.bus := rfl
@[simp] theorem setClaims_notices (s : State) (c : Chan) (k : ChannelClaims) : (s.setClaims c k).notices = s.notices := rfl
@[simp] theorem setClaims_layout (s : State) (c : Chan) (k : ChannelClaims) : (s.setClaims c k).layout = s.layout := rfl
@[simp] theorem setClaims_uptime (s : State) (c : Chan) (k : ChannelClaims) : (s.setClaims c k).uptime = s.uptime := rfl
@[simp] theorem setClaims_clock (s : State) (c : Chan) (k : ChannelClaims) : (s.setClaims c k).clock = s.clock := rfl
@[simp] theorem setClaims_clockPhase (s : State) (c : Chan) (k : ChannelClaims) : (s.setClaims c k).clockPhase = s.clockPhase := rfl
@[simp] theorem setClaims_calls (s : State) (c : Chan) (k : ChannelClaims) : (s.setClaims c k).calls = s.calls := rfl
@[simp] theorem setClaims_callTimers (s : State) (c : Chan) (k : ChannelClaims) : (s.setClaims c k).callTimers = s.callTimers := rfl
@[simp] theorem setClaims_reportTimer (s : State) (c : Chan) (k : ChannelClaims) : (s.setClaims c k).reportTimer = s.reportTimer := rfl
@[simp] theorem setClaims_channels (s : State) (c : Chan) (k : ChannelClaims) : (s.setClaims c k).channels = s.channels := rfl
@[simp] theorem setClaims_ports (s : State) (c : Chan) (k : ChannelClaims) : (s.setClaims c k).ports = s.ports := rfl
@[simp] theorem setClaims_arbiter (s : State) (c : Chan) (k : ChannelClaims) : (s.setClaims c k).arbiter = s.arbiter := rfl
@[simp] theorem setClaims_engine (s : State) (c : Chan) (k : ChannelClaims) : (s.setClaims c k).engine = s.engine := rfl
@[simp] theorem setClaims_tables (s : State) (c : Chan) (k : ChannelClaims) : (s.setClaims c k).tables = s.tables := rfl
@[simp] theorem setClaims_egress (s : State) (c : Chan) (k : ChannelClaims) : (s.setClaims c k).egress = s.egress := rfl
@[simp] theorem setClaims_settings (s : State) (c : Chan) (k : ChannelClaims) : (s.setClaims c k).settings = s.settings := rfl
@[simp] theorem setClaims_pending (s : State) (c : Chan) (k : ChannelClaims) : (s.setClaims c k).pending = s.pending := rfl

/-! ### setChan -/

@[simp] theorem setChan_power (s : State) (c : Chan) (k : Channel) : (s.setChan c k).power = s.power := rfl
@[simp] theorem setChan_bus (s : State) (c : Chan) (k : Channel) : (s.setChan c k).bus = s.bus := rfl
@[simp] theorem setChan_notices (s : State) (c : Chan) (k : Channel) : (s.setChan c k).notices = s.notices := rfl
@[simp] theorem setChan_layout (s : State) (c : Chan) (k : Channel) : (s.setChan c k).layout = s.layout := rfl
@[simp] theorem setChan_uptime (s : State) (c : Chan) (k : Channel) : (s.setChan c k).uptime = s.uptime := rfl
@[simp] theorem setChan_clock (s : State) (c : Chan) (k : Channel) : (s.setChan c k).clock = s.clock := rfl
@[simp] theorem setChan_clockPhase (s : State) (c : Chan) (k : Channel) : (s.setChan c k).clockPhase = s.clockPhase := rfl
@[simp] theorem setChan_calls (s : State) (c : Chan) (k : Channel) : (s.setChan c k).calls = s.calls := rfl
@[simp] theorem setChan_callTimers (s : State) (c : Chan) (k : Channel) : (s.setChan c k).callTimers = s.callTimers := rfl
@[simp] theorem setChan_reportTimer (s : State) (c : Chan) (k : Channel) : (s.setChan c k).reportTimer = s.reportTimer := rfl
@[simp] theorem setChan_claims (s : State) (c : Chan) (k : Channel) : (s.setChan c k).claims = s.claims := rfl
@[simp] theorem setChan_ports (s : State) (c : Chan) (k : Channel) : (s.setChan c k).ports = s.ports := rfl
@[simp] theorem setChan_arbiter (s : State) (c : Chan) (k : Channel) : (s.setChan c k).arbiter = s.arbiter := rfl
@[simp] theorem setChan_engine (s : State) (c : Chan) (k : Channel) : (s.setChan c k).engine = s.engine := rfl
@[simp] theorem setChan_tables (s : State) (c : Chan) (k : Channel) : (s.setChan c k).tables = s.tables := rfl
@[simp] theorem setChan_egress (s : State) (c : Chan) (k : Channel) : (s.setChan c k).egress = s.egress := rfl
@[simp] theorem setChan_settings (s : State) (c : Chan) (k : Channel) : (s.setChan c k).settings = s.settings := rfl
@[simp] theorem setChan_pending (s : State) (c : Chan) (k : Channel) : (s.setChan c k).pending = s.pending := rfl

/-! ### setPort -/

@[simp] theorem setPort_power (s : State) (c : Chan) (p : Port) : (s.setPort c p).power = s.power := rfl
@[simp] theorem setPort_bus (s : State) (c : Chan) (p : Port) : (s.setPort c p).bus = s.bus := rfl
@[simp] theorem setPort_notices (s : State) (c : Chan) (p : Port) : (s.setPort c p).notices = s.notices := rfl
@[simp] theorem setPort_layout (s : State) (c : Chan) (p : Port) : (s.setPort c p).layout = s.layout := rfl
@[simp] theorem setPort_uptime (s : State) (c : Chan) (p : Port) : (s.setPort c p).uptime = s.uptime := rfl
@[simp] theorem setPort_clock (s : State) (c : Chan) (p : Port) : (s.setPort c p).clock = s.clock := rfl
@[simp] theorem setPort_clockPhase (s : State) (c : Chan) (p : Port) : (s.setPort c p).clockPhase = s.clockPhase := rfl
@[simp] theorem setPort_calls (s : State) (c : Chan) (p : Port) : (s.setPort c p).calls = s.calls := rfl
@[simp] theorem setPort_callTimers (s : State) (c : Chan) (p : Port) : (s.setPort c p).callTimers = s.callTimers := rfl
@[simp] theorem setPort_reportTimer (s : State) (c : Chan) (p : Port) : (s.setPort c p).reportTimer = s.reportTimer := rfl
@[simp] theorem setPort_claims (s : State) (c : Chan) (p : Port) : (s.setPort c p).claims = s.claims := rfl
@[simp] theorem setPort_channels (s : State) (c : Chan) (p : Port) : (s.setPort c p).channels = s.channels := rfl
@[simp] theorem setPort_arbiter (s : State) (c : Chan) (p : Port) : (s.setPort c p).arbiter = s.arbiter := rfl
@[simp] theorem setPort_engine (s : State) (c : Chan) (p : Port) : (s.setPort c p).engine = s.engine := rfl
@[simp] theorem setPort_tables (s : State) (c : Chan) (p : Port) : (s.setPort c p).tables = s.tables := rfl
@[simp] theorem setPort_egress (s : State) (c : Chan) (p : Port) : (s.setPort c p).egress = s.egress := rfl
@[simp] theorem setPort_settings (s : State) (c : Chan) (p : Port) : (s.setPort c p).settings = s.settings := rfl
@[simp] theorem setPort_pending (s : State) (c : Chan) (p : Port) : (s.setPort c p).pending = s.pending := rfl

/-! ### setTallies -/

@[simp] theorem setTallies_power (s : State) (c : Chan) (t : Tallies) : (s.setTallies c t).power = s.power := rfl
@[simp] theorem setTallies_bus (s : State) (c : Chan) (t : Tallies) : (s.setTallies c t).bus = s.bus := rfl
@[simp] theorem setTallies_notices (s : State) (c : Chan) (t : Tallies) : (s.setTallies c t).notices = s.notices := rfl
@[simp] theorem setTallies_layout (s : State) (c : Chan) (t : Tallies) : (s.setTallies c t).layout = s.layout := rfl
@[simp] theorem setTallies_uptime (s : State) (c : Chan) (t : Tallies) : (s.setTallies c t).uptime = s.uptime := rfl
@[simp] theorem setTallies_clock (s : State) (c : Chan) (t : Tallies) : (s.setTallies c t).clock = s.clock := rfl
@[simp] theorem setTallies_clockPhase (s : State) (c : Chan) (t : Tallies) : (s.setTallies c t).clockPhase = s.clockPhase := rfl
@[simp] theorem setTallies_calls (s : State) (c : Chan) (t : Tallies) : (s.setTallies c t).calls = s.calls := rfl
@[simp] theorem setTallies_callTimers (s : State) (c : Chan) (t : Tallies) : (s.setTallies c t).callTimers = s.callTimers := rfl
@[simp] theorem setTallies_reportTimer (s : State) (c : Chan) (t : Tallies) : (s.setTallies c t).reportTimer = s.reportTimer := rfl
@[simp] theorem setTallies_claims (s : State) (c : Chan) (t : Tallies) : (s.setTallies c t).claims = s.claims := rfl
@[simp] theorem setTallies_ports (s : State) (c : Chan) (t : Tallies) : (s.setTallies c t).ports = s.ports := rfl
@[simp] theorem setTallies_arbiter (s : State) (c : Chan) (t : Tallies) : (s.setTallies c t).arbiter = s.arbiter := rfl
@[simp] theorem setTallies_engine (s : State) (c : Chan) (t : Tallies) : (s.setTallies c t).engine = s.engine := rfl
@[simp] theorem setTallies_tables (s : State) (c : Chan) (t : Tallies) : (s.setTallies c t).tables = s.tables := rfl
@[simp] theorem setTallies_egress (s : State) (c : Chan) (t : Tallies) : (s.setTallies c t).egress = s.egress := rfl
@[simp] theorem setTallies_settings (s : State) (c : Chan) (t : Tallies) : (s.setTallies c t).settings = s.settings := rfl
@[simp] theorem setTallies_pending (s : State) (c : Chan) (t : Tallies) : (s.setTallies c t).pending = s.pending := rfl

/-! ### setSlot -/

@[simp] theorem setSlot_power (s : State) (i : Slot) (r : Option Referral) : (s.setSlot i r).power = s.power := by cases i <;> rfl
@[simp] theorem setSlot_bus (s : State) (i : Slot) (r : Option Referral) : (s.setSlot i r).bus = s.bus := by cases i <;> rfl
@[simp] theorem setSlot_notices (s : State) (i : Slot) (r : Option Referral) : (s.setSlot i r).notices = s.notices := by cases i <;> rfl
@[simp] theorem setSlot_layout (s : State) (i : Slot) (r : Option Referral) : (s.setSlot i r).layout = s.layout := by cases i <;> rfl
@[simp] theorem setSlot_uptime (s : State) (i : Slot) (r : Option Referral) : (s.setSlot i r).uptime = s.uptime := by cases i <;> rfl
@[simp] theorem setSlot_clock (s : State) (i : Slot) (r : Option Referral) : (s.setSlot i r).clock = s.clock := by cases i <;> rfl
@[simp] theorem setSlot_clockPhase (s : State) (i : Slot) (r : Option Referral) : (s.setSlot i r).clockPhase = s.clockPhase := by cases i <;> rfl
@[simp] theorem setSlot_calls (s : State) (i : Slot) (r : Option Referral) : (s.setSlot i r).calls = s.calls := by cases i <;> rfl
@[simp] theorem setSlot_callTimers (s : State) (i : Slot) (r : Option Referral) : (s.setSlot i r).callTimers = s.callTimers := by cases i <;> rfl
@[simp] theorem setSlot_reportTimer (s : State) (i : Slot) (r : Option Referral) : (s.setSlot i r).reportTimer = s.reportTimer := by cases i <;> rfl
@[simp] theorem setSlot_claims (s : State) (i : Slot) (r : Option Referral) : (s.setSlot i r).claims = s.claims := by cases i <;> rfl
@[simp] theorem setSlot_channels (s : State) (i : Slot) (r : Option Referral) : (s.setSlot i r).channels = s.channels := by cases i <;> rfl
@[simp] theorem setSlot_ports (s : State) (i : Slot) (r : Option Referral) : (s.setSlot i r).ports = s.ports := by cases i <;> rfl
@[simp] theorem setSlot_arbiter (s : State) (i : Slot) (r : Option Referral) : (s.setSlot i r).arbiter = s.arbiter := by cases i <;> rfl
@[simp] theorem setSlot_tables (s : State) (i : Slot) (r : Option Referral) : (s.setSlot i r).tables = s.tables := by cases i <;> rfl
@[simp] theorem setSlot_egress (s : State) (i : Slot) (r : Option Referral) : (s.setSlot i r).egress = s.egress := by cases i <;> rfl
@[simp] theorem setSlot_settings (s : State) (i : Slot) (r : Option Referral) : (s.setSlot i r).settings = s.settings := by cases i <;> rfl
@[simp] theorem setSlot_pending (s : State) (i : Slot) (r : Option Referral) : (s.setSlot i r).pending = s.pending := by cases i <;> rfl

/-! ### Reading after an update -/

@[simp] theorem call_setCall (s : State) (b d : Berth) (k : Call) :
    (s.setCall b k).call d = if d = b then k else s.call d := PerBerth.get_set ..

@[simp] theorem timersOf_setTimers (s : State) (b d : Berth) (t : CallTimers) :
    (s.setTimers b t).timersOf d = if d = b then t else s.timersOf d := PerBerth.get_set ..

@[simp] theorem claimsOf_setClaims (s : State) (c d : Chan) (k : ChannelClaims) :
    (s.setClaims c k).claimsOf d = if d = c then k else s.claimsOf d := PerChan.get_set ..

@[simp] theorem chan_setChan (s : State) (c d : Chan) (k : Channel) :
    (s.setChan c k).chan d = if d = c then k else s.chan d := PerChan.get_set ..

@[simp] theorem port_setPort (s : State) (c d : Chan) (p : Port) :
    (s.setPort c p).port d = if d = c then p else s.port d := PerChan.get_set ..

@[simp] theorem slot_setSlot (s : State) (i j : Slot) (r : Option Referral) :
    (s.setSlot i r).slot j = if j = i then r else s.slot j := by cases i <;> cases j <;> rfl

@[simp] theorem chan_setTallies (s : State) (c d : Chan) (t : Tallies) :
    (s.setTallies c t).chan d = if d = c then { s.chan c with tallies := t } else s.chan d :=
  PerChan.get_set ..

/-- Two states that agree on the calls read the same record at every berth. -/
theorem call_congr {s t : State} (h : s.calls = t.calls) (b : Berth) : s.call b = t.call b := by
  unfold call
  rw [h]

/-- The seats held on a berth depend on the claims alone (R27). -/
theorem held_congr {s t : State} (h : s.claims = t.claims) (b : Berth) : s.held b = t.held b := by
  unfold held claimsOf
  rw [h]

/-- The reported headroom depends on the calls and the claims alone (R27). -/
theorem headroom_congr {s t : State} (hk : s.calls = t.calls) (hc : s.claims = t.claims) (b : Berth) :
    s.headroom b = t.headroom b := by
  unfold headroom aboard
  rw [call_congr hk, held_congr hc]

end Machine.State

end Sys2Proof
end

