-- ==== Sys2Proof/Laws/Frames.lean ====
section
/-! SUPPORT. For each shared operation, the parts of the state that it may change: every other part is as
before. Rewriting with one of these shows what an operation leaves. -/

namespace Sys2Proof.Machine.State

/-! ### Notices -/

theorem queue_frame (s : State) (n : Notice) : ∃ q, s.queue n = { s with notices := q } := by
  unfold queue
  split <;> exact ⟨_, rfl⟩

theorem queueIf_frame (s : State) (p : Bool) (n : Notice) : ∃ q, s.queueIf p n = { s with notices := q } := by
  unfold queueIf
  split
  · exact queue_frame s n
  · exact ⟨_, rfl⟩

theorem queueAll_frame (s : State) (ns : List Notice) : ∃ q, s.queueAll ns = { s with notices := q } := by
  unfold queueAll
  induction ns generalizing s with
  | nil => exact ⟨_, rfl⟩
  | cons n ns ih =>
    obtain ⟨q, h⟩ := queue_frame s n
    obtain ⟨q', h'⟩ := ih (s.queue n)
    exact ⟨q', by rw [List.foldl_cons, h', h]⟩

theorem queueCallState_frame (s : State) (b : Berth) (v : Nat) (l : CallState) (c : CallCause) :
    ∃ q, s.queueCallState b v l c = { s with notices := q } := queue_frame s _

theorem queueHeadroom_frame (before s : State) (b : Berth) :
    ∃ q, queueHeadroom before s b = { s with notices := q } := by
  unfold queueHeadroom
  split
  · exact queue_frame s _
  · exact ⟨_, rfl⟩

theorem markIfOver_frame (s : State) (b : Berth) (m : MarkCause) :
    ∃ k q, s.markIfOver b m = { s with calls := k, notices := q } := by
  unfold markIfOver
  split
  · obtain ⟨q, h⟩ := queue_frame (s.setCall b { s.call b with overCapacity := true })
      (.overCapacity b (s.call b).vessel m (s.call b).capacity (s.aboard b) (s.held b))
    exact ⟨_, q, by rw [h]; rfl⟩
  · exact ⟨_, _, rfl⟩

/-! ### Reader lines -/

theorem startRecord_frame (s : State) (c : Chan) (r : ReaderRecord) :
    ∃ k p, s.startRecord c r = { s with channels := k, ports := p } := by
  unfold startRecord
  cases r with
  | verdict v =>
    simp only
    split <;> exact ⟨_, _, rfl⟩
  | setup _ _ _ => exact ⟨_, _, rfl⟩
  | mode _ => exact ⟨_, _, rfl⟩

theorem sendRecord_frame (s : State) (c : Chan) (r : ReaderRecord) :
    ∃ k p, s.sendRecord c r = { s with channels := k, ports := p } := by
  unfold sendRecord
  split
  · exact startRecord_frame s c r
  · exact ⟨_, _, rfl⟩

theorem deliver_frame (s : State) (c : Chan) (v : Verdict) :
    ∃ k p, s.deliver c v = { s with channels := k, ports := p } := by
  unfold deliver
  split
  · exact ⟨_, _, rfl⟩
  · exact sendRecord_frame _ c _

theorem refusePending_frame (s : State) (c : Chan) (code : VerdictCode) :
    ∃ a k p, s.refusePending c code = { s with arbiter := a, channels := k, ports := p } := by
  unfold refusePending
  split
  · exact ⟨_, _, _, rfl⟩
  · exact ⟨_, deliver_frame _ c _⟩

theorem refuseDesk_frame (s : State) (code : VerdictCode) :
    ∃ a q, s.refuseDesk code = { s with arbiter := a, notices := q } := by
  unfold refuseDesk
  split
  · exact ⟨_, _, rfl⟩
  · exact ⟨_, queue_frame _ _⟩

/-! ### The journey list and the allotment table -/

theorem writeJourney_frame (s : State) (e : JourneyEntry) :
    ∃ j, s.writeJourney e = { s with engine := { s.engine with journey := j } } := ⟨_, rfl⟩

theorem recordWrite_frame (s : State) (c : Chan) (k : Claim) (tag : Nat) (o : JourneyOutcome) :
    ∃ j, s.recordWrite c k tag o = { s with engine := { s.engine with journey := j } } := by
  unfold recordWrite
  split <;> exact ⟨_, rfl⟩

theorem recordLapse_frame (s : State) (k : Claim) :
    ∃ j, s.recordLapse k = { s with engine := { s.engine with journey := j } } := by
  unfold recordLapse
  split <;> exact ⟨_, rfl⟩

theorem recordPassed_frame (s : State) (k : Claim) :
    ∃ j, s.recordPassed k = { s with engine := { s.engine with journey := j } } := by
  unfold recordPassed
  split <;> exact ⟨_, rfl⟩

theorem modAllot_frame (s : State) (token : CardId) (f : Allotment → Allotment) :
    ∃ l, s.modAllot token f = { s with tables := { s.tables with allot := l } } := ⟨_, rfl⟩

theorem modClaimAllot_frame (s : State) (k : Claim) (f : Allotment → Allotment) :
    ∃ l, s.modClaimAllot k f = { s with tables := { s.tables with allot := l } } := by
  unfold modClaimAllot
  split <;> exact ⟨_, rfl⟩

/-! ### The claim table -/

theorem returnSeats_frame (s : State) (k : Claim) :
    ∃ l, s.returnSeats k = { s with tables := { s.tables with allot := l } } := modClaimAllot_frame s k _

theorem lapseEffects_frame (s : State) (k : Claim) :
    ∃ l j, s.lapseEffects k =
      { s with tables := { s.tables with allot := l }, engine := { s.engine with journey := j } } := by
  obtain ⟨l, h⟩ := returnSeats_frame s k
  obtain ⟨j, h'⟩ := recordLapse_frame (s.returnSeats k) k
  exact ⟨l, j, by rw [lapseEffects, h', h]⟩

theorem unknownEffects_frame (s : State) (c : Chan) (k : Claim) :
    ∃ l j, s.unknownEffects c k =
      { s with tables := { s.tables with allot := l }, engine := { s.engine with journey := j } } := by
  obtain ⟨l, h⟩ := returnSeats_frame s k
  unfold unknownEffects
  split
  · exact ⟨l, s.engine.journey, h⟩
  · next tag _ =>
    obtain ⟨j, h'⟩ := recordWrite_frame (s.returnSeats k) c k tag .uncertain
    exact ⟨l, j, by rw [h', h]⟩

theorem lapseHead_frame (s : State) (c : Chan) :
    ∃ k l j, s.lapseHead c = { s with
      claims := k, tables := { s.tables with allot := l }, engine := { s.engine with journey := j } } := by
  unfold lapseHead
  split
  · exact ⟨_, _, _, rfl⟩
  · exact ⟨_, lapseEffects_frame _ _⟩

theorem countFare_frame (s : State) (k : Claim) : ∃ n, s.countFare k = { s with calls := n } := by
  unfold countFare
  dsimp only
  split <;> exact ⟨_, rfl⟩

theorem writeDone_frame (s : State) (c : Chan) (tag : Nat) :
    ∃ k n j, s.writeDone c tag = { s with
      claims := k, calls := n, engine := { s.engine with journey := j } } := by
  unfold writeDone
  split
  · exact ⟨_, _, _, rfl⟩
  · next k rest _ =>
    obtain ⟨n, h⟩ := countFare_frame
      (s.setClaims c ⟨joinLive (s.windowOf c) (s.claimsOf c).live k, rest⟩) k
    obtain ⟨j, h'⟩ := recordWrite_frame ((s.setClaims c
      ⟨joinLive (s.windowOf c) (s.claimsOf c).live k, rest⟩).countFare k) c k tag .admitted
    exact ⟨_, n, j, by rw [h', h]; rfl⟩

theorem writeFailed_frame (s : State) (c : Chan) (tag : Nat) :
    ∃ k l, s.writeFailed c tag = { s with claims := k, tables := { s.tables with allot := l } } := by
  unfold writeFailed
  split
  · exact ⟨_, _, rfl⟩
  · exact ⟨_, returnSeats_frame _ _⟩

theorem writeUnknown_frame (s : State) (c : Chan) (tag : Nat) :
    ∃ k l j, s.writeUnknown c tag = { s with
      claims := k, tables := { s.tables with allot := l }, engine := { s.engine with journey := j } } := by
  unfold writeUnknown
  split
  · exact ⟨_, _, _, rfl⟩
  · exact ⟨_, unknownEffects_frame _ _ _⟩

theorem foldl_frame {α : Type} (f : State → α → State) (xs : List α)
    (hf : ∀ s x, ∃ l j, f s x =
      { s with tables := { s.tables with allot := l }, engine := { s.engine with journey := j } })
    (s : State) :
    ∃ l j, xs.foldl f s =
      { s with tables := { s.tables with allot := l }, engine := { s.engine with journey := j } } := by
  induction xs generalizing s with
  | nil => exact ⟨_, _, rfl⟩
  | cons x xs ih =>
    obtain ⟨l, j, h⟩ := hf s x
    obtain ⟨l', j', h'⟩ := ih (f s x)
    exact ⟨l', j', by rw [List.foldl_cons, h', h]⟩

theorem endClaims_frame (s : State) (c : Chan) (p : Claim → Bool) :
    ∃ k l j, s.endClaims c p = { s with
      claims := k, tables := { s.tables with allot := l }, engine := { s.engine with journey := j } } := by
  unfold endClaims
  dsimp only
  obtain ⟨l, j, h⟩ := foldl_frame lapseEffects ((s.claimsOf c).live.filter p) lapseEffects_frame
    (s.setClaims c ⟨(s.claimsOf c).live.filter fun x => !p x, (s.claimsOf c).provisional.filter fun x => !p x⟩)
  rw [h]
  obtain ⟨l', j', h'⟩ := foldl_frame (fun t x => t.unknownEffects c x)
    ((s.claimsOf c).provisional.filter p) (fun t x => unknownEffects_frame t c x)
    { s.setClaims c ⟨(s.claimsOf c).live.filter fun x => !p x,
        (s.claimsOf c).provisional.filter fun x => !p x⟩ with
      tables := { s.tables with allot := l }, engine := { s.engine with journey := j } }
  exact ⟨_, l', j', h'⟩

theorem enterClaim_frame (s : State) (c : Chan) (k : Claim) :
    ∃ n l, s.enterClaim c k = { s with claims := n, tables := { s.tables with allot := l } } :=
  ⟨_, modClaimAllot_frame _ _ _⟩

theorem requestSeats_frame (s : State) (r : SeatRequest) :
    ∃ n l, (s.requestSeats r).1 = { s with claims := n, tables := { s.tables with allot := l } } := by
  unfold requestSeats
  split
  · exact ⟨_, _, rfl⟩
  · split
    · exact ⟨_, _, rfl⟩
    · split
      · exact ⟨_, _, rfl⟩
      · split
        · exact ⟨_, _, rfl⟩
        · exact enterClaim_frame _ _ _

end Sys2Proof.Machine.State
end

