-- ==== Sys2Proof/Laws/Channels.lean ====
section
/-! SUPPORT. How an event ends at the channels: what settling leaves of the state, and that after it every
channel is in its derived state, drives that state's lines and shows its mode. -/

namespace Sys2Proof.Machine.State

/-! ### What settling leaves -/

theorem takeState_frame (s : State) (c : Chan) : ∃ k, s.takeState c = { s with channels := k } := ⟨_, rfl⟩

theorem reportState_frame (old s : State) (c : Chan) : ∃ q, reportState old s c = { s with notices := q } := by
  unfold reportState
  dsimp only
  split
  · exact queue_frame s _
  · exact ⟨_, rfl⟩

theorem tellArbiter_frame (old s : State) (c : Chan) :
    ∃ a k p, tellArbiter old s c = { s with arbiter := a, channels := k, ports := p } := by
  unfold tellArbiter
  split
  · exact ⟨_, _, _, rfl⟩
  · split
    · exact ⟨_, _, _, rfl⟩
    · exact refusePending_frame s c _

theorem showMode_frame (s : State) (c : Chan) : ∃ k p, s.showMode c = { s with channels := k, ports := p } := by
  unfold showMode
  dsimp only
  split
  · exact sendRecord_frame _ c _
  · exact ⟨_, _, rfl⟩

theorem settleChannel_frame (s : State) (c : Chan) :
    ∃ q a k p, s.settleChannel c = { s with notices := q, arbiter := a, channels := k, ports := p } := by
  obtain ⟨q, h1⟩ := reportState_frame s (s.takeState c) c
  obtain ⟨a, k, p, h2⟩ := tellArbiter_frame s (reportState s (s.takeState c) c) c
  obtain ⟨k', p', h3⟩ := showMode_frame (tellArbiter s (reportState s (s.takeState c) c) c) c
  exact ⟨q, a, k', p', by rw [settleChannel, h3, h2, h1]; rfl⟩

theorem settleChannels_frame (s : State) :
    ∃ q a k p, s.settleChannels = { s with notices := q, arbiter := a, channels := k, ports := p } := by
  unfold settleChannels
  obtain ⟨q0, a0, k0, p0, h0⟩ := settleChannel_frame s .c0
  rw [h0]
  obtain ⟨q1, a1, k1, p1, h1⟩ := settleChannel_frame
    { s with notices := q0, arbiter := a0, channels := k0, ports := p0 } .c1
  rw [h1]
  obtain ⟨q2, a2, k2, p2, h2⟩ := settleChannel_frame
    { s with notices := q1, arbiter := a1, channels := k1, ports := p1 } .c2
  rw [h2]
  obtain ⟨q3, a3, k3, p3, h3⟩ := settleChannel_frame
    { s with notices := q2, arbiter := a2, channels := k2, ports := p2 } .c3
  exact ⟨q3, a3, k3, p3, by rw [h3]⟩

/-- Settling changes only notices, the arbiter's places, the channels and the ports. -/
theorem settle_frame (before s : State) (after : List Notice) :
    ∃ q a k p, settle before s after = { s with notices := q, arbiter := a, channels := k, ports := p } := by
  unfold settle
  obtain ⟨q0, h0⟩ := queueHeadroom_frame before s .b0
  obtain ⟨q1, h1⟩ := queueHeadroom_frame before (queueHeadroom before s .b0) .b1
  obtain ⟨q2, h2⟩ := queueAll_frame (queueHeadroom before (queueHeadroom before s .b0) .b1) after
  obtain ⟨q, a, k, p, h⟩ := settleChannels_frame
    ((queueHeadroom before (queueHeadroom before s .b0) .b1).queueAll after)
  exact ⟨q, a, k, p, by rw [h, h2, h1, h0]⟩

theorem sendSetup_frame (s : State) (c : Chan) : ∃ k p, s.sendSetup c = { s with channels := k, ports := p } :=
  sendRecord_frame _ c _

/-! ### What sending a record leaves of the channels and the ports -/

theorem startRecord_chan (s : State) (c d : Chan) (r : ReaderRecord) :
    ∃ t, (s.startRecord c r).chan d = { s.chan d with tallies := t } := by
  unfold startRecord
  cases r with
  | verdict v =>
    dsimp only
    split
    · rw [chan_setTallies]
      split
      · next h => exact ⟨_, by rw [h]; rfl⟩
      · exact ⟨_, rfl⟩
    · exact ⟨_, rfl⟩
  | setup _ _ _ => exact ⟨_, rfl⟩
  | mode _ => exact ⟨_, rfl⟩

theorem startRecord_port (s : State) (c d : Chan) (r : ReaderRecord) :
    (s.startRecord c r).port d = if d = c then { s.port c with sending := some r } else s.port d := by
  unfold startRecord
  cases r with
  | verdict v =>
    dsimp only
    split
    · exact port_setPort ..
    · exact port_setPort ..
  | setup _ _ _ => exact port_setPort ..
  | mode _ => exact port_setPort ..

theorem sendRecord_chan (s : State) (c d : Chan) (r : ReaderRecord) :
    ∃ t, (s.sendRecord c r).chan d = { s.chan d with tallies := t } := by
  unfold sendRecord
  split
  · exact startRecord_chan s c d r
  · exact ⟨_, rfl⟩

theorem sendRecord_port (s : State) (c d : Chan) (r : ReaderRecord) :
    ∃ g w, (s.sendRecord c r).port d = { s.port d with sending := g, waiting := w } := by
  unfold sendRecord
  split
  · rw [startRecord_port]
    split
    · next h => exact ⟨_, _, by rw [h]⟩
    · exact ⟨_, _, rfl⟩
  · rw [port_setPort]
    split
    · next h => exact ⟨_, _, by rw [h]⟩
    · exact ⟨_, _, rfl⟩

theorem deliver_chan (s : State) (c d : Chan) (v : Verdict) :
    ∃ t, (s.deliver c v).chan d = { s.chan d with tallies := t } := by
  unfold deliver
  split
  · exact ⟨_, rfl⟩
  · exact sendRecord_chan _ c d _

theorem sendRecord_line (s : State) (c d : Chan) (r : ReaderRecord) :
    ((s.sendRecord c r).port d).line = (s.port d).line := by
  obtain ⟨g, w, h⟩ := sendRecord_port s c d r
  rw [h]

theorem deliver_line (s : State) (c d : Chan) (v : Verdict) :
    ((s.deliver c v).port d).line = (s.port d).line := by
  unfold deliver
  split
  · rfl
  · refine (sendRecord_line _ c d _).trans ?_
    rw [port_setPort]
    split
    · next h => rw [h]
    · rfl

theorem refusePending_chan (s : State) (c d : Chan) (code : VerdictCode) :
    ∃ t, (s.refusePending c code).chan d = { s.chan d with tallies := t } := by
  unfold refusePending
  split
  · exact ⟨_, rfl⟩
  · exact deliver_chan _ c d _

theorem refusePending_line (s : State) (c d : Chan) (code : VerdictCode) :
    ((s.refusePending c code).port d).line = (s.port d).line := by
  unfold refusePending
  split
  · rfl
  · exact deliver_line _ c d _

theorem tellArbiter_chan (old s : State) (c d : Chan) :
    ∃ t, (tellArbiter old s c).chan d = { s.chan d with tallies := t } := by
  unfold tellArbiter
  split
  · exact ⟨_, rfl⟩
  · split
    · exact ⟨_, rfl⟩
    · exact refusePending_chan s c d _

theorem tellArbiter_line (old s : State) (c d : Chan) :
    ((tellArbiter old s c).port d).line = (s.port d).line := by
  unfold tellArbiter
  split
  · rfl
  · split
    · rfl
    · exact refusePending_line s c d _

/-! ### What the derivation depends on -/

/-- The inputs of a channel's derivation agree in two states (R54, R56, R70). -/
structure SameInputs (s t : State) (c : Chan) : Prop where
  egress : t.egress = s.egress
  settings : t.settings = s.settings
  calls : t.calls = s.calls
  claims : t.claims = s.claims
  rampSafe : (t.chan c).rampSafe = (s.chan c).rampSafe
  service : (t.chan c).service = (s.chan c).service
  line : (t.port c).line = (s.port c).line

theorem SameInputs.trans {s t u : State} {c : Chan} (h : SameInputs s t c) (k : SameInputs t u c) :
    SameInputs s u c :=
  ⟨k.egress.trans h.egress, k.settings.trans h.settings, k.calls.trans h.calls, k.claims.trans h.claims,
    k.rampSafe.trans h.rampSafe, k.service.trans h.service, k.line.trans h.line⟩

theorem SameInputs.ordinaryState {s t : State} {c : Chan} (h : SameInputs s t c) :
    t.ordinaryState c = s.ordinaryState c := by
  simp only [State.ordinaryState, callStateOf, State.berthOf, call, claimsOf, h.settings, h.calls, h.claims,
    h.rampSafe, h.service, h.line]
  rfl

theorem SameInputs.deriveState {s t : State} {c : Chan} (h : SameInputs s t c) :
    t.deriveState c = s.deriveState c := by
  simp only [State.deriveState, h.ordinaryState, h.egress]

theorem SameInputs.ordinaryLines {s t : State} {c : Chan} (h : SameInputs s t c) (st : ChannelState) :
    t.ordinaryLines c st = s.ordinaryLines c st := by
  simp only [State.ordinaryLines, callStateOf, State.berthOf, call, h.settings, h.calls]

theorem SameInputs.lines {s t : State} {c : Chan} (h : SameInputs s t c) (st : ChannelState) :
    t.lines c st = s.lines c st := by
  simp only [State.lines, h.ordinaryLines, h.ordinaryState, h.egress]

theorem SameInputs.displayMode {s t : State} {c : Chan} (h : SameInputs s t c)
    (hs : (t.chan c).state = (s.chan c).state) : t.displayMode c = s.displayMode c := by
  have hh : ∀ b, t.headroom b = s.headroom b := headroom_congr h.calls h.claims
  simp only [State.displayMode, belowLastCall, noRoomAt, callStateOf, State.berthOf, cfg, call, hs, hh,
    h.settings, h.calls, h.service]
  rfl

/-! ### The channels after settling -/

theorem showMode_chan (s : State) (c d : Chan) :
    ∃ m t, (s.showMode c).chan d = { s.chan d with modeShown := m, tallies := t } := by
  unfold showMode
  dsimp only
  split
  · obtain ⟨t, h⟩ := sendRecord_chan
      (s.setChan c { s.chan c with modeShown := some (s.displayMode c) }) c d (.mode (s.displayMode c))
    rw [h, chan_setChan]
    split
    · next h => exact ⟨_, _, by rw [h]⟩
    · exact ⟨_, _, rfl⟩
  · exact ⟨_, _, rfl⟩

theorem showMode_line (s : State) (c d : Chan) : ((s.showMode c).port d).line = (s.port d).line := by
  unfold showMode
  dsimp only
  split
  · obtain ⟨g, w, h⟩ := sendRecord_port
      (s.setChan c { s.chan c with modeShown := some (s.displayMode c) }) c d (.mode (s.displayMode c))
    rw [h]
    rfl
  · rfl

theorem showMode_shown (s : State) (c : Chan) (h : (s.port c).line = .up) :
    ((s.showMode c).chan c).modeShown = some (s.displayMode c) := by
  unfold showMode
  dsimp only
  split
  · obtain ⟨t, ht⟩ := sendRecord_chan
      (s.setChan c { s.chan c with modeShown := some (s.displayMode c) }) c c (.mode (s.displayMode c))
    rw [ht, chan_setChan, if_pos rfl]
  · next hn =>
    simp only [Bool.and_eq_true, decide_eq_true_eq, not_and, ne_eq, Decidable.not_not] at hn
    exact hn h

theorem showMode_other (s : State) (c d : Chan) (hd : d ≠ c) :
    ∃ t, (s.showMode c).chan d = { s.chan d with tallies := t } := by
  unfold showMode
  dsimp only
  split
  · obtain ⟨t, h⟩ := sendRecord_chan
      (s.setChan c { s.chan c with modeShown := some (s.displayMode c) }) c d (.mode (s.displayMode c))
    rw [h, chan_setChan, if_neg hd]
    exact ⟨_, rfl⟩
  · exact ⟨_, rfl⟩

/-- A channel is in its derived state, drives that state's lines and, where its reader line is UP, shows
its mode (R54, R56, R71). -/
structure SettledAt (s : State) (c : Chan) : Prop where
  state : (s.chan c).state = s.deriveState c
  lines : ((s.chan c).unlockIn, (s.chan c).unlockOut) = s.lines c (s.chan c).state
  shown : (s.port c).line = .up → (s.chan c).modeShown = some (s.displayMode c)

/-- A settled channel stays settled where its inputs, its state, its lines and its mode shown stay. -/
theorem SettledAt.of_same {s t : State} {c : Chan} (h : SettledAt s c) (hi : SameInputs s t c)
    (hst : (t.chan c).state = (s.chan c).state) (hin : (t.chan c).unlockIn = (s.chan c).unlockIn)
    (hout : (t.chan c).unlockOut = (s.chan c).unlockOut)
    (hm : (t.chan c).modeShown = (s.chan c).modeShown) : SettledAt t c where
  state := by rw [hst, h.state, hi.deriveState]
  lines := by rw [hin, hout, hst, h.lines, hi.lines]
  shown := fun hu => by rw [hm, hi.displayMode hst, h.shown (hi.line ▸ hu)]

theorem takeState_same (s : State) (c d : Chan) : SameInputs s (s.takeState c) d where
  egress := rfl
  settings := rfl
  calls := rfl
  claims := rfl
  rampSafe := by
    simp only [takeState, chan_setChan]
    split
    · next h => rw [h]
    · rfl
  service := by
    simp only [takeState, chan_setChan]
    split
    · next h => rw [h]
    · rfl
  line := rfl

theorem reportState_same (old s : State) (c d : Chan) : SameInputs s (reportState old s c) d := by
  obtain ⟨q, h⟩ := reportState_frame old s c
  rw [h]
  exact ⟨rfl, rfl, rfl, rfl, rfl, rfl, rfl⟩

theorem tellArbiter_same (old s : State) (c d : Chan) : SameInputs s (tellArbiter old s c) d := by
  obtain ⟨t, ht⟩ := tellArbiter_chan old s c d
  have hl := tellArbiter_line old s c d
  obtain ⟨a, k, p, h⟩ := tellArbiter_frame old s c
  refine ⟨?_, ?_, ?_, ?_, by rw [ht], by rw [ht], hl⟩ <;> rw [h]

theorem showMode_same (s : State) (c d : Chan) : SameInputs s (s.showMode c) d := by
  obtain ⟨m, t, ht⟩ := showMode_chan s c d
  have hl := showMode_line s c d
  obtain ⟨k, p, h⟩ := showMode_frame s c
  refine ⟨?_, ?_, ?_, ?_, by rw [ht], by rw [ht], hl⟩ <;> rw [h]

theorem settleChannel_same (s : State) (c d : Chan) : SameInputs s (s.settleChannel c) d :=
  (((takeState_same s c d).trans (reportState_same _ _ c d)).trans (tellArbiter_same _ _ c d)).trans
    (showMode_same _ c d)

/-- A channel's part of an event leaves it settled. -/
theorem settleChannel_settled (s : State) (c : Chan) : SettledAt (s.settleChannel c) c := by
  have h2 : SameInputs (s.takeState c) (tellArbiter s (reportState s (s.takeState c) c) c) c :=
    (reportState_same _ _ c c).trans (tellArbiter_same _ _ c c)
  obtain ⟨t, ht⟩ := tellArbiter_chan s (reportState s (s.takeState c) c) c c
  obtain ⟨q, hq⟩ := reportState_frame s (s.takeState c) c
  have hc : (reportState s (s.takeState c) c).chan c = (s.takeState c).chan c := by rw [hq]; rfl
  have hd := takeState_same s c c
  have h4 := showMode_same (tellArbiter s (reportState s (s.takeState c) c) c) c c
  obtain ⟨m, u, hu⟩ := showMode_chan (tellArbiter s (reportState s (s.takeState c) c) c) c c
  have hst : ((s.settleChannel c).chan c).state = s.deriveState c := by
    rw [settleChannel, hu, ht, hc]
    simp only [takeState, chan_setChan, if_pos]
  refine ⟨?_, ?_, ?_⟩
  · rw [hst]
    exact ((settleChannel_same s c c).deriveState).symm
  · rw [hst, (settleChannel_same s c c).lines, settleChannel, hu, ht, hc]
    simp only [takeState, chan_setChan, if_pos]
  · intro hup
    rw [settleChannel] at hup ⊢
    rw [showMode_line] at hup
    rw [showMode_shown _ _ hup, h4.displayMode (by rw [hu])]

/-- A channel's part of an event leaves the other channels as settled as they were. -/
theorem settleChannel_keeps (s : State) (c d : Chan) (hd : d ≠ c) (h : SettledAt s d) :
    SettledAt (s.settleChannel c) d := by
  obtain ⟨t, ht⟩ := tellArbiter_chan s (reportState s (s.takeState c) c) c d
  obtain ⟨q, hq⟩ := reportState_frame s (s.takeState c) c
  have hc : (reportState s (s.takeState c) c).chan d = s.chan d := by
    rw [hq]
    exact (chan_setChan ..).trans (if_neg hd)
  obtain ⟨u, hu⟩ := showMode_other (tellArbiter s (reportState s (s.takeState c) c) c) c d hd
  refine h.of_same (settleChannel_same s c d) ?_ ?_ ?_ ?_ <;> rw [settleChannel, hu, ht, hc]

theorem settleChannels_settled (s : State) (c : Chan) : SettledAt s.settleChannels c := by
  unfold settleChannels
  cases c with
  | c0 =>
    refine settleChannel_keeps _ _ _ (by decide) (settleChannel_keeps _ _ _ (by decide)
      (settleChannel_keeps _ _ _ (by decide) (settleChannel_settled _ _)))
  | c1 =>
    exact settleChannel_keeps _ _ _ (by decide) (settleChannel_keeps _ _ _ (by decide)
      (settleChannel_settled _ _))
  | c2 => exact settleChannel_keeps _ _ _ (by decide) (settleChannel_settled _ _)
  | c3 => exact settleChannel_settled _ _

/-- After an event every channel is settled. -/
theorem settle_settled (before s : State) (after : List Notice) (c : Chan) :
    SettledAt (settle before s after) c := settleChannels_settled _ c

end Sys2Proof.Machine.State
end

