-- ==== Sys2Proof/Laws/Events.lean ====
section
/-! SUPPORT. For the operations of the arbiter, the engine and the call table, the parts of the state that
each may change. -/

namespace Sys2Proof.Machine.State

/-! ### The arbiter -/

theorem arrive_frame (s : State) (c : Chan) (card : Card) :
    ∃ a k p, s.arrive c card = { s with arbiter := a, channels := k, ports := p } := by
  unfold arrive
  split
  · exact ⟨_, deliver_frame s c _⟩
  · exact ⟨_, _, _, rfl⟩

theorem arriveDesk_frame (s : State) (card : Card) (line : Nat) :
    ∃ a q, s.arriveDesk card line = { s with arbiter := a, notices := q } := by
  unfold arriveDesk
  dsimp only
  split
  · exact refuseDesk_frame _ _
  · split
    · exact refuseDesk_frame _ _
    · exact ⟨_, _, rfl⟩

theorem refuseFold_frame (f : State → Chan → State) (cs : List Chan)
    (hf : ∀ s c, ∃ a k p, f s c = { s with arbiter := a, channels := k, ports := p }) (s : State) :
    ∃ a k p, cs.foldl f s = { s with arbiter := a, channels := k, ports := p } := by
  induction cs generalizing s with
  | nil => exact ⟨_, _, _, rfl⟩
  | cons c cs ih =>
    obtain ⟨a, k, p, h⟩ := hf s c
    obtain ⟨a', k', p', h'⟩ := ih (f s c)
    exact ⟨a', k', p', by rw [List.foldl_cons, h', h]⟩

theorem refuseOfBerth_frame (s : State) (b : Berth) (code : VerdictCode) (p : Chan → Bool) :
    ∃ a k q, s.refuseOfBerth b code p = { s with arbiter := a, channels := k, ports := q } := by
  refine refuseFold_frame _ _ (fun t c => ?_) s
  split
  · exact refusePending_frame t c code
  · exact ⟨_, _, _, rfl⟩

theorem refuseBySettings_frame (s : State) (old : Settings) :
    ∃ a k p q, s.refuseBySettings old =
      { s with arbiter := a, channels := k, ports := p, notices := q } := by
  unfold refuseBySettings
  dsimp only
  obtain ⟨a, k, p, h⟩ := refuseFold_frame (fun (t : State) (c : Chan) =>
    if t.cfg.level.get c = 0 && old.level.get c ≠ 0 then t.refusePending c .notServed
    else if (t.cfg.level.get c < old.level.get c || old.lastCallLevel < t.cfg.lastCallLevel) &&
        t.belowLastCall c then t.refusePending c .notBoarding
    else t) Chan.all (fun t c => by
      split
      · exact refusePending_frame t c _
      · split
        · exact refusePending_frame t c _
        · exact ⟨_, _, _, rfl⟩) s
  split
  · rw [h]
    obtain ⟨a', q, h'⟩ := refuseDesk_frame { s with arbiter := a, channels := k, ports := p } .notServed
    exact ⟨a', k, p, q, by rw [h']⟩
  · exact ⟨a, k, p, s.notices, h⟩

theorem handOver_frame (s : State) (q : Requester) :
    ∃ a k w, s.handOver q =
      { s with arbiter := a, channels := k, engine := { s.engine with work := w } } := by
  unfold handOver
  split
  · split <;> exact ⟨_, _, _, rfl⟩
  · split <;> exact ⟨_, _, _, rfl⟩

theorem select_frame (s : State) :
    ∃ a k w, s.select = { s with arbiter := a, channels := k, engine := { s.engine with work := w } } := by
  unfold select
  split
  · exact ⟨_, _, _, rfl⟩
  · split
    · exact ⟨_, _, _, rfl⟩
    · exact handOver_frame s _

/-- After a selection the engine works, or no pending presentation is eligible (R92). -/
theorem select_idle (s : State) : s.select.engine.work = none → s.candidates = [] := by
  unfold select
  split
  · next h =>
    intro hn
    rw [hn] at h
    exact absurd h (by decide)
  · split
    · next h =>
      intro _
      unfold bestOf at h
      split at h
      · assumption
      · exact absurd h (by simp)
    · next k h =>
      intro hn
      exfalso
      have hk : k ∈ s.candidates := by
        unfold bestOf at h
        split at h
        · exact absurd h (by simp)
        · next x xs hx =>
          rw [hx]
          have hf : ∀ (ys : List Candidate) (a : Candidate),
              ys.foldl (fun x y => if y.beats x then y else x) a ∈ a :: ys := by
            intro ys
            induction ys with
            | nil => simp
            | cons y ys ih =>
              intro a
              rw [List.foldl_cons]
              split
              · exact List.mem_cons_of_mem _ (ih y)
              · rcases List.mem_cons.1 (ih a) with h | h
                · rw [h]
                  exact List.mem_cons_self
                · exact List.mem_cons_of_mem _ (List.mem_cons_of_mem _ h)
          rw [← Option.some.inj h]
          exact hf xs x
      unfold candidates at hk
      rcases List.mem_append.1 hk with hk | hk
      · obtain ⟨c, _, hc⟩ := List.mem_flatMap.1 hk
        unfold channelCandidate at hc
        split at hc
        · simp at hc
        · next p hp =>
          split at hc
          · rw [List.mem_singleton] at hc
            rw [hc] at hn
            simp [handOver, hp, takeWork] at hn
          · simp at hc
      · unfold deskCandidate at hk
        split at hk
        · simp at hk
        · next p hp =>
          rw [List.mem_singleton] at hk
          rw [hk] at hn
          simp [handOver, hp, takeWork] at hn

theorem markWithdrawn_frame (s : State) (c : Chan) :
    ∃ w, s.markWithdrawn c = { s with engine := { s.engine with work := w } } := by
  unfold markWithdrawn
  split
  · exact ⟨_, rfl⟩
  · split <;> exact ⟨_, rfl⟩

theorem dropReferral_frame (s : State) (c : Chan) (i : Slot) :
    ∃ x y, s.dropReferral c i = { s with engine := { s.engine with slot0 := x, slot1 := y } } := by
  unfold dropReferral
  split
  · exact ⟨_, _, rfl⟩
  · split
    · cases i <;> exact ⟨_, _, rfl⟩
    · exact ⟨_, _, rfl⟩

theorem tellWithdrawn_frame (s : State) (c : Chan) :
    ∃ w x y, ((s.markWithdrawn c).dropReferral c .s0).dropReferral c .s1 =
      { s with engine := { s.engine with work := w, slot0 := x, slot1 := y } } := by
  obtain ⟨w, h⟩ := markWithdrawn_frame s c
  obtain ⟨x, y, h1⟩ := dropReferral_frame (s.markWithdrawn c) c .s0
  obtain ⟨x', y', h2⟩ := dropReferral_frame ((s.markWithdrawn c).dropReferral c .s0) c .s1
  exact ⟨w, x', y', by rw [h2, h1, h]⟩

theorem withdrawPresentation_frame (s : State) (c : Chan) :
    ∃ p a w x y, s.withdrawPresentation c = { s with
      ports := p, arbiter := a, engine := { s.engine with work := w, slot0 := x, slot1 := y } } := by
  unfold withdrawPresentation
  split
  · exact ⟨_, _, _, _, _, rfl⟩
  · exact ⟨_, _, tellWithdrawn_frame _ c⟩

theorem endWriteUnknown_frame (s : State) (c : Chan) :
    ∃ p k l j, s.endWriteUnknown c = { s with
      ports := p, claims := k, tables := { s.tables with allot := l },
      engine := { s.engine with journey := j } } := by
  unfold endWriteUnknown
  split
  · exact ⟨_, _, _, _, rfl⟩
  · exact ⟨_, writeUnknown_frame _ c _⟩

/-! ### The engine -/

theorem readmit_frame (s : State) (c : Chan) (id : CardId) :
    ∃ j, s.readmit c id = { s with engine := { s.engine with journey := j } } := by
  unfold readmit
  split <;> exact ⟨_, rfl⟩

/-- What a case taken to its verdict may change. -/
theorem stageTen_frame (s : State) (c : Chan) (card : Card) (clock : Option ClockTime) (t : Terms) :
    ∃ (g : Engine) (n : _) (k : _) (l : _) (p : _), (s.stageTen c card clock t).state = { s with
      engine := { s.engine with nextTag := g.nextTag, notes := g.notes, journey := g.journey },
      claims := n, tables := { s.tables with allot := l }, channels := k, ports := p } := by
  unfold stageTen
  dsimp only
  have hd : ∃ x y, (if t.writes = true then s.drawTag.setNote c s.engine.nextTag t.charge else s) =
      { s with engine := { s.engine with nextTag := x, notes := y } } := by
    split <;> exact ⟨_, _, rfl⟩
  obtain ⟨x, y, hd⟩ := hd
  rw [hd]
  obtain ⟨n, l, hr⟩ := requestSeats_frame { s with engine := { s.engine with nextTag := x, notes := y } }
    (seatRequest c card t s.engine.nextTag)
  split
  · next held _ heq =>
    have hh : held = (State.requestSeats { s with engine := { s.engine with nextTag := x, notes := y } }
      (seatRequest c card t s.engine.nextTag)).1 := by rw [heq]
    rw [hr] at hh
    have hn : ∃ j, (if t.reuse = true then held.readmit c card.id else held) =
        { held with engine := { held.engine with journey := j } } := by
      split
      · exact readmit_frame held c card.id
      · exact ⟨_, rfl⟩
    obtain ⟨j, hn⟩ := hn
    rw [hn]
    obtain ⟨k, p, hv⟩ := deliver_frame { held with engine := { held.engine with journey := j } } c
      (State.grantedVerdict { held with engine := { held.engine with journey := j } } c card clock t
        s.engine.nextTag)
    rw [hv, hh]
    exact ⟨{ s.engine with nextTag := x, notes := y, journey := j }, n, k, l, p, rfl⟩
  all_goals
    next held heq =>
      have hh : held = (State.requestSeats { s with engine := { s.engine with nextTag := x, notes := y } }
        (seatRequest c card t s.engine.nextTag)).1 := by rw [heq]
      rw [hr] at hh
      unfold refuseCase
      dsimp only
      rw [hh]
      obtain ⟨k, p, hv⟩ := deliver_frame
        { s with
          engine := { s.engine with nextTag := x, notes := y }
          claims := n
          tables := { s.tables with allot := l } } c (plainVerdict card _)
      rw [hv]
      exact ⟨{ s.engine with nextTag := x, notes := y }, n, k, l, p, rfl⟩

theorem acceptCase_frame (s : State) (c : Chan) (card : Card) (clock : Option ClockTime) (t : Terms) :
    ∃ (g : Engine) (n : _) (k : _) (l : _) (p : _), (s.acceptCase c card clock t).state = { s with
      engine := { s.engine with nextTag := g.nextTag, notes := g.notes, journey := g.journey },
      claims := n, tables := { s.tables with allot := l }, channels := k, ports := p } := by
  unfold acceptCase
  split
  · unfold refuseCase
    dsimp only
    obtain ⟨k, p, h⟩ := deliver_frame s c (plainVerdict card _)
    rw [h]
    exact ⟨s.engine, _, k, _, p, rfl⟩
  · exact stageTen_frame s c card clock t

theorem fallback_frame (s : State) (c : Chan) (card : Card) (cause : Cause) (block : Nat) :
    ∃ (g : Engine) (n : _) (k : _) (l : _) (p : _), (s.fallback c card cause block).state = { s with
      engine := { s.engine with nextTag := g.nextTag, notes := g.notes, journey := g.journey },
      claims := n, tables := { s.tables with allot := l }, channels := k, ports := p } := by
  unfold fallback
  split
  · unfold refuseCase
    dsimp only
    obtain ⟨k, p, h⟩ := deliver_frame s c (plainVerdict card (fallbackRefusal cause))
    rw [h]
    exact ⟨s.engine, _, k, _, p, rfl⟩
  · exact acceptCase_frame s c card _ _

/-- What the completion of a work may change. -/
theorem completeWork_frame (s : State) (w : Work) :
    ∃ g n k l p a q, (s.completeWork w).1 = { s with
      engine := g, claims := n, tables := { s.tables with allot := l }, channels := k, ports := p,
      arbiter := a, notices := q } := by
  unfold completeWork
  split
  · next line _ =>
    unfold completeDesk
    dsimp only
    obtain ⟨q, h⟩ := queue_frame
      { s.freeEngine with arbiter := { s.freeEngine.arbiter with deskOccupied := false } }
      (.deskResult (s.freeEngine.deskResultOf w line))
    rw [h]
    exact ⟨_, _, _, _, _, _, _, rfl⟩
  · next c _ =>
    split
    · exact ⟨_, _, _, _, _, _, _, rfl⟩
    · split
      · obtain ⟨k, p, h⟩ := deliver_frame s.freeEngine c (plainVerdict w.card .notBoarding)
        dsimp only
        rw [h]
        exact ⟨_, _, _, _, _, _, _, rfl⟩
      · obtain ⟨k, p, h⟩ := deliver_frame s.freeEngine c (plainVerdict w.card .egress)
        dsimp only
        rw [h]
        exact ⟨_, _, _, _, _, _, _, rfl⟩
      · unfold completeStages
        dsimp only
        have hn : ∃ j, (if (s.freeEngine.decideCard w.card w.snap (s.freeEngine.lineOf c)).2 = true then
            s.freeEngine.resolveNewest w.card.id else s.freeEngine) =
            { s.freeEngine with engine := { s.freeEngine.engine with journey := j } } := by
          split <;> exact ⟨_, rfl⟩
        obtain ⟨j, hn⟩ := hn
        rw [hn]
        generalize hs : ({ s.freeEngine with engine := { s.freeEngine.engine with journey := j } } : State) = t
        have ht : ∃ g, t = { s with engine := g } := ⟨_, hs.symm⟩
        obtain ⟨g, ht⟩ := ht
        split
        · obtain ⟨k, p, h⟩ := deliver_frame t c (plainVerdict w.card _)
          rw [h, ht]
          exact ⟨_, _, _, _, _, _, _, rfl⟩
        · unfold denyWithBlock
          dsimp only
          obtain ⟨k, p, h⟩ := deliver_frame t.drawTag c
            ⟨.denied, 0, w.card.balance, some ⟨t.engine.nextTag, none, none, none, true⟩⟩
          rw [h, ht]
          exact ⟨_, _, _, _, _, _, _, rfl⟩
        · obtain ⟨g', n, k, l, p, h⟩ := acceptCase_frame t c w.card w.snap.clock _
          rw [h, ht]
          exact ⟨_, _, _, _, _, _, _, rfl⟩
        · unfold referCase
          split
          · split
            · dsimp only
              obtain ⟨g', n, k, l, p, h⟩ := fallback_frame t c w.card _ _
              rw [h, ht]
              exact ⟨_, _, _, _, _, _, _, rfl⟩
            · next i _ _ _ _ =>
              rw [ht]
              cases i <;> exact ⟨_, _, _, _, _, _, _, rfl⟩
          · dsimp only
            obtain ⟨g', n, k, l, p, h⟩ := fallback_frame t c w.card _ _
            rw [h, ht]
            exact ⟨_, _, _, _, _, _, _, rfl⟩

end Sys2Proof.Machine.State
end

