-- ==== Sys2Proof/Laws/CallTable.lean ====
section
/-! SUPPORT. For the transitions of the call records, for egress and for a request as a whole, the parts of
the state that each may change. -/

namespace Sys2Proof.Machine.State

/-! ### Call records -/

theorem enterLastCall_frame (s : State) (b : Berth) (cause : CallCause) :
    ∃ n t q a k p, s.enterLastCall b cause = { s with
      calls := n, callTimers := t, notices := q, arbiter := a, channels := k, ports := p } := by
  unfold enterLastCall
  dsimp only
  obtain ⟨q, h⟩ := queueCallState_frame
    ((s.setCall b { s.call b with state := .lastCall, lastCallAt := s.stamp }).setTimers b
      ⟨none, some (s.cfg.lastCallLimit * 1000)⟩) b (s.call b).vessel (s.call b).state cause
  rw [h]
  exact ⟨_, _, q, refuseOfBerth_frame _ _ _ _⟩

theorem recordEnd_frame (s : State) (b : Berth) (reason : EndReason) (cause : CallCause) :
    ∃ n t q, s.recordEnd b reason cause = { s with calls := n, callTimers := t, notices := q } :=
  ⟨_, _, queueCallState_frame _ b _ _ _⟩

theorem endCallClaims_frame (s : State) (b : Berth) :
    ∃ k l j, s.endCallClaims b = { s with
      claims := k, tables := { s.tables with allot := l }, engine := { s.engine with journey := j } } := by
  have hf : ∀ (cs : List Chan) (s : State), ∃ k l j,
      cs.foldl (fun t c => t.endClaims c fun k => k.berth = b) s = { s with
        claims := k, tables := { s.tables with allot := l }, engine := { s.engine with journey := j } } := by
    intro cs
    induction cs with
    | nil => exact fun s => ⟨_, _, _, rfl⟩
    | cons c cs ih =>
      intro s
      obtain ⟨k, l, j, h⟩ := endClaims_frame s c fun k => k.berth = b
      obtain ⟨k', l', j', h'⟩ := ih (s.endClaims c fun k => k.berth = b)
      exact ⟨k', l', j', by rw [List.foldl_cons, h', h]⟩
  exact hf _ s

theorem markEnded_frame (s : State) (b : Berth) (reason : EndReason) :
    ∃ w, s.markEnded b reason = { s with engine := { s.engine with work := w } } := by
  unfold markEnded
  split
  · exact ⟨_, rfl⟩
  · split
    · exact ⟨_, rfl⟩
    · split <;> exact ⟨_, rfl⟩

theorem resolveSlot_frame (s : State) (i : Slot) (code : VerdictCode) :
    ∃ x y k p, s.resolveSlot i code = { s with
      engine := { s.engine with slot0 := x, slot1 := y }, channels := k, ports := p } := by
  unfold resolveSlot
  split
  · exact ⟨_, _, _, _, rfl⟩
  · next r _ =>
    obtain ⟨k, p, h⟩ := deliver_frame (s.setSlot i none) r.channel (plainVerdict r.card code)
    rw [h]
    cases i <;> exact ⟨_, _, k, p, rfl⟩

theorem resolveSlotOfBerth_frame (s : State) (b : Berth) (i : Slot) (code : VerdictCode) :
    ∃ x y k p, s.resolveSlotOfBerth b i code = { s with
      engine := { s.engine with slot0 := x, slot1 := y }, channels := k, ports := p } := by
  unfold resolveSlotOfBerth
  split
  · exact ⟨_, _, _, _, rfl⟩
  · split
    · exact resolveSlot_frame s i code
    · exact ⟨_, _, _, _, rfl⟩

/-- What the ends of calls, and entry to egress, leave: the host's side of the part and every table but
the allotments. -/
structure KeepsRest (s t : State) : Prop where
  power : t.power = s.power
  bus : t.bus = s.bus
  layout : t.layout = s.layout
  uptime : t.uptime = s.uptime
  clock : t.clock = s.clock
  clockPhase : t.clockPhase = s.clockPhase
  reportTimer : t.reportTimer = s.reportTimer
  settings : t.settings = s.settings
  pending : t.pending = s.pending
  product : t.tables.product = s.tables.product
  active : t.tables.active = s.tables.active
  pendingTariff : t.tables.pendingTariff = s.tables.pendingTariff
  deny : t.tables.deny = s.tables.deny
  load : t.tables.load = s.tables.load

theorem KeepsRest.trans {s t u : State} (h : KeepsRest s t) (k : KeepsRest t u) : KeepsRest s u :=
  ⟨k.power.trans h.power, k.bus.trans h.bus, k.layout.trans h.layout, k.uptime.trans h.uptime,
    k.clock.trans h.clock, k.clockPhase.trans h.clockPhase, k.reportTimer.trans h.reportTimer,
    k.settings.trans h.settings, k.pending.trans h.pending, k.product.trans h.product,
    k.active.trans h.active, k.pendingTariff.trans h.pendingTariff, k.deny.trans h.deny,
    k.load.trans h.load⟩

theorem KeepsRest.same (s : State) : KeepsRest s s :=
  ⟨rfl, rfl, rfl, rfl, rfl, rfl, rfl, rfl, rfl, rfl, rfl, rfl, rfl, rfl⟩

theorem recordEnd_keeps (s : State) (b : Berth) (reason : EndReason) (cause : CallCause) :
    KeepsRest s (s.recordEnd b reason cause) := by
  obtain ⟨_, _, _, h⟩ := recordEnd_frame s b reason cause
  rw [h]
  exact ⟨rfl, rfl, rfl, rfl, rfl, rfl, rfl, rfl, rfl, rfl, rfl, rfl, rfl, rfl⟩

theorem endCallClaims_keeps (s : State) (b : Berth) : KeepsRest s (s.endCallClaims b) := by
  obtain ⟨_, _, _, h⟩ := endCallClaims_frame s b
  rw [h]
  exact ⟨rfl, rfl, rfl, rfl, rfl, rfl, rfl, rfl, rfl, rfl, rfl, rfl, rfl, rfl⟩

theorem refuseOfBerth_keeps (s : State) (b : Berth) (code : VerdictCode) (p : Chan → Bool) :
    KeepsRest s (s.refuseOfBerth b code p) := by
  obtain ⟨_, _, _, h⟩ := refuseOfBerth_frame s b code p
  rw [h]
  exact ⟨rfl, rfl, rfl, rfl, rfl, rfl, rfl, rfl, rfl, rfl, rfl, rfl, rfl, rfl⟩

theorem markEnded_keeps (s : State) (b : Berth) (reason : EndReason) :
    KeepsRest s (s.markEnded b reason) := by
  obtain ⟨_, h⟩ := markEnded_frame s b reason
  rw [h]
  exact ⟨rfl, rfl, rfl, rfl, rfl, rfl, rfl, rfl, rfl, rfl, rfl, rfl, rfl, rfl⟩

theorem resolveSlot_keeps (s : State) (i : Slot) (code : VerdictCode) :
    KeepsRest s (s.resolveSlot i code) := by
  obtain ⟨_, _, _, _, h⟩ := resolveSlot_frame s i code
  rw [h]
  exact ⟨rfl, rfl, rfl, rfl, rfl, rfl, rfl, rfl, rfl, rfl, rfl, rfl, rfl, rfl⟩

theorem resolveSlotOfBerth_keeps (s : State) (b : Berth) (i : Slot) (code : VerdictCode) :
    KeepsRest s (s.resolveSlotOfBerth b i code) := by
  obtain ⟨_, _, _, _, h⟩ := resolveSlotOfBerth_frame s b i code
  rw [h]
  exact ⟨rfl, rfl, rfl, rfl, rfl, rfl, rfl, rfl, rfl, rfl, rfl, rfl, rfl, rfl⟩

theorem endCall_keeps (s : State) (b : Berth) (reason : EndReason) (cause : CallCause) :
    KeepsRest s (s.endCall b reason cause) := by
  unfold endCall
  refine .trans ?_ (resolveSlotOfBerth_keeps _ b .s1 _)
  refine .trans ?_ (resolveSlotOfBerth_keeps _ b .s0 _)
  refine .trans ?_ (markEnded_keeps _ b reason)
  refine .trans ?_ (refuseOfBerth_keeps _ b _ _)
  refine .trans ?_ (endCallClaims_keeps _ b)
  exact recordEnd_keeps s b reason cause

theorem recordEnd_egress (s : State) (b : Berth) (reason : EndReason) (cause : CallCause) :
    (s.recordEnd b reason cause).egress = s.egress := by
  obtain ⟨_, _, _, h⟩ := recordEnd_frame s b reason cause
  rw [h]

theorem endCallClaims_egress (s : State) (b : Berth) : (s.endCallClaims b).egress = s.egress := by
  obtain ⟨_, _, _, h⟩ := endCallClaims_frame s b
  rw [h]

theorem refuseOfBerth_egress (s : State) (b : Berth) (code : VerdictCode) (p : Chan → Bool) :
    (s.refuseOfBerth b code p).egress = s.egress := by
  obtain ⟨_, _, _, h⟩ := refuseOfBerth_frame s b code p
  rw [h]

theorem markEnded_egress (s : State) (b : Berth) (reason : EndReason) :
    (s.markEnded b reason).egress = s.egress := by
  obtain ⟨_, h⟩ := markEnded_frame s b reason
  rw [h]

theorem resolveSlotOfBerth_egress (s : State) (b : Berth) (i : Slot) (code : VerdictCode) :
    (s.resolveSlotOfBerth b i code).egress = s.egress := by
  obtain ⟨_, _, _, _, h⟩ := resolveSlotOfBerth_frame s b i code
  rw [h]

/-- The end of a call does not touch egress (R17). -/
theorem endCall_egress (s : State) (b : Berth) (reason : EndReason) (cause : CallCause) :
    (s.endCall b reason cause).egress = s.egress := by
  simp only [endCall, resolveSlotOfBerth_egress, markEnded_egress, refuseOfBerth_egress,
    endCallClaims_egress, recordEnd_egress]

/-! ### Egress -/

theorem startEgress_frame (s : State) (cause : EgressCause) :
    ∃ e q, s.startEgress cause = { s with egress := e, notices := q } := ⟨_, queue_frame _ _⟩

theorem startEgress_keeps (s : State) (cause : EgressCause) : KeepsRest s (s.startEgress cause) := by
  obtain ⟨_, _, h⟩ := startEgress_frame s cause
  rw [h]
  exact ⟨rfl, rfl, rfl, rfl, rfl, rfl, rfl, rfl, rfl, rfl, rfl, rfl, rfl, rfl⟩

theorem endByEgress_keeps (s : State) (b : Berth) : KeepsRest s (s.endByEgress b) := by
  unfold endByEgress
  split
  · exact endCall_keeps s b _ _
  · exact .same s

theorem refuseDesk_keeps (s : State) (code : VerdictCode) : KeepsRest s (s.refuseDesk code) := by
  obtain ⟨_, _, h⟩ := refuseDesk_frame s code
  rw [h]
  exact ⟨rfl, rfl, rfl, rfl, rfl, rfl, rfl, rfl, rfl, rfl, rfl, rfl, rfl, rfl⟩

/-- Entry to egress leaves the host's side of the part and every table but the allotments (R165). -/
theorem enterEgress_keeps (s : State) (cause : EgressCause) : KeepsRest s (s.enterEgress cause) := by
  unfold enterEgress
  refine .trans ?_ (refuseDesk_keeps _ .egress)
  refine .trans ?_ (resolveSlot_keeps _ .s1 .egress)
  refine .trans ?_ (resolveSlot_keeps _ .s0 .egress)
  refine .trans ?_ (endByEgress_keeps _ .b1)
  refine .trans ?_ (endByEgress_keeps _ .b0)
  exact startEgress_keeps s cause

theorem leaveEgress_frame (s : State) : ∃ e q, s.leaveEgress = { s with egress := e, notices := q } :=
  ⟨_, queue_frame _ _⟩

/-! ### Requests (R174) -/

/-- A request taken by a running part with a body length its kind can have. -/
theorem request_fits (s : State) (kind : MsgKind) (dest : Dest) (act : State → Act)
    (h : s.power = .running) :
    s.request kind dest .fits act = answer kind.code dest (act s.beginRequest) := by
  simp [request, whenRunning, h]

/-- A request whose body length is wrong is refused BAD_LENGTH and has no other effect. -/
theorem request_wrong (s : State) (kind : MsgKind) (dest : Dest) (act : State → Act)
    (h : s.power = .running) :
    s.request kind dest .wrong act = answer kind.code dest (.refuse s.beginRequest .badLength) := by
  simp [request, whenRunning, h]

/-- A part that holds itself inactive takes no request. -/
theorem request_inactive (s : State) (kind : MsgKind) (dest : Dest) (len : BodyLen) (act : State → Act)
    (h : s.power = .inactive) : s.request kind dest len act = s := by
  simp [request, whenRunning, h]

theorem beginRequest_frame (s : State) : ∃ b, s.beginRequest = { s with bus := b } := ⟨_, rfl⟩

/-- A reply changes the bus port alone. -/
theorem answer_frame (kind : Nat) (dest : Dest) (a : Act) :
    ∃ b, answer kind dest a = { a.state with bus := b } := by
  cases dest <;> exact ⟨_, rfl⟩

end Sys2Proof.Machine.State

namespace Sys2Proof.Machine

/-! ### Saturating counts -/

theorem bump_le (n : Nat) : bump n ≤ Config.countMax := Nat.min_le_right _ _

/-- A count within its saturation does not fall. -/
theorem le_bump {n : Nat} (h : n ≤ Config.countMax) : n ≤ bump n := Nat.le_min.mpr ⟨Nat.le_succ n, h⟩

end Sys2Proof.Machine
end

