-- ==== Sys2Proof/Laws/Follow.lean ====
section
/-! SUPPORT. The channels' part of an event keeps gates and lines and only empties places of the pending
set; and an event's first notice stands behind those already queued. -/

namespace Sys2Proof.Machine

theorem Channel.SameGate.same (k : Channel) : k.SameGate k :=
  ⟨rfl, rfl, rfl, rfl, rfl, rfl, rfl, rfl, rfl, rfl, rfl, rfl, rfl⟩

theorem Channel.SameGate.trans {k m n : Channel} (h : k.SameGate m) (g : m.SameGate n) : k.SameGate n :=
  ⟨g.beamA.trans h.beamA, g.beamB.trans h.beamB, g.rampSafe.trans h.rampSafe, g.tracker.trans h.tracker,
    g.obstructionTimer.trans h.obstructionTimer, g.obstructedAt.trans h.obstructedAt,
    g.service.trans h.service, g.inward.trans h.inward, g.outward.trans h.outward,
    g.unpaid.trans h.unpaid, g.stray.trans h.stray, g.egressIn.trans h.egressIn,
    g.egressOut.trans h.egressOut⟩

theorem Port.SameLine.same (p : Port) : p.SameLine p := ⟨rfl, rfl, rfl, rfl⟩

theorem Port.SameLine.trans {p q r : Port} (h : p.SameLine q) (g : q.SameLine r) : p.SameLine r :=
  ⟨g.receiver.trans h.receiver, g.line.trans h.line, g.inactivity.trans h.inactivity,
    g.attach.trans h.attach⟩

namespace State

theorem GatesKept.same {s t : State} (hk : t.channels = s.channels) (hp : t.ports = s.ports) :
    s.GatesKept t where
  gate c := by
    rw [chan, chan, hk]
    exact .same _
  line c := by
    rw [port, port, hp]
    exact .same _

theorem GatesKept.trans {s t u : State} (h : s.GatesKept t) (g : t.GatesKept u) : s.GatesKept u :=
  ⟨fun c => (h.gate c).trans (g.gate c), fun c => (h.line c).trans (g.line c)⟩

theorem ChannelsFollow.same {s t : State} (hk : t.channels = s.channels) (hp : t.ports = s.ports)
    (ha : t.arbiter = s.arbiter) : s.ChannelsFollow t :=
  ⟨.same hk hp, by rw [ha], by rw [ha], fun c => by rw [ha]; exact .inl rfl⟩

theorem ChannelsFollow.trans {s t u : State} (h : s.ChannelsFollow t) (g : t.ChannelsFollow u) :
    s.ChannelsFollow u where
  gates := h.gates.trans g.gates
  desk := g.desk.trans h.desk
  occupied := g.occupied.trans h.occupied
  place c := by
    rcases g.place c with e | e
    · rw [e]
      exact h.place c
    · exact .inr e

/-! ### Sending -/

theorem startRecord_gates (s : State) (c : Chan) (r : ReaderRecord) : s.GatesKept (s.startRecord c r) where
  gate d := by
    unfold startRecord
    cases r with
    | verdict v =>
      dsimp only
      split
      · rw [chan_setTallies]
        split
        · next h =>
          rw [h]
          exact ⟨rfl, rfl, rfl, rfl, rfl, rfl, rfl, rfl, rfl, rfl, rfl, rfl, rfl⟩
        · exact .same _
      · exact .same _
    | setup _ _ _ => exact .same _
    | mode _ => exact .same _
  line d := by
    rw [startRecord_port]
    split
    · next h =>
      rw [h]
      exact ⟨rfl, rfl, rfl, rfl⟩
    · exact .same _

/-- An update of a port that keeps its line, and of nothing else, keeps every gate and line. -/
theorem setPort_gates (s : State) (c : Chan) (p : Port) (h : (s.port c).SameLine p) :
    s.GatesKept (s.setPort c p) where
  gate d := .same _
  line d := by
    rw [port_setPort]
    split
    · next e =>
      rw [e]
      exact h
    · exact .same _

theorem sendRecord_gates (s : State) (c : Chan) (r : ReaderRecord) : s.GatesKept (s.sendRecord c r) := by
  unfold sendRecord
  split
  · exact startRecord_gates s c r
  · exact setPort_gates s c _ ⟨rfl, rfl, rfl, rfl⟩

theorem deliver_gates (s : State) (c : Chan) (v : Verdict) : s.GatesKept (s.deliver c v) := by
  unfold deliver
  split
  · exact .same rfl rfl
  · refine GatesKept.trans ?_ (sendRecord_gates _ c _)
    exact setPort_gates s c _ ⟨rfl, rfl, rfl, rfl⟩

theorem deliver_follow (s : State) (c : Chan) (v : Verdict) : s.ChannelsFollow (s.deliver c v) := by
  have hg := deliver_gates s c v
  obtain ⟨k, p, h⟩ := deliver_frame s c v
  rw [h] at hg ⊢
  exact ⟨hg, rfl, rfl, fun _ => .inl rfl⟩

theorem refusePending_follow (s : State) (c : Chan) (code : VerdictCode) :
    s.ChannelsFollow (s.refusePending c code) := by
  unfold refusePending
  split
  · exact .same rfl rfl rfl
  · refine ChannelsFollow.trans ?_ (deliver_follow _ c _)
    refine ⟨.same rfl rfl, rfl, rfl, fun d => ?_⟩
    rw [PerChan.get_set]
    split
    · exact .inr rfl
    · exact .inl rfl

/-! ### Settling -/

theorem takeState_follow (s : State) (c : Chan) : s.ChannelsFollow (s.takeState c) where
  gates := {
    gate := fun d => by
      simp only [takeState, chan_setChan]
      split
      · next h =>
        rw [h]
        exact ⟨rfl, rfl, rfl, rfl, rfl, rfl, rfl, rfl, rfl, rfl, rfl, rfl, rfl⟩
      · exact .same _
    line := fun _ => .same _ }
  desk := rfl
  occupied := rfl
  place _ := .inl rfl

theorem reportState_follow (old s : State) (c : Chan) : s.ChannelsFollow (reportState old s c) := by
  obtain ⟨q, h⟩ := reportState_frame old s c
  rw [h]
  exact .same rfl rfl rfl

theorem tellArbiter_follow (old s : State) (c : Chan) : s.ChannelsFollow (tellArbiter old s c) := by
  unfold tellArbiter
  split
  · exact .same rfl rfl rfl
  · split
    · exact .same rfl rfl rfl
    · exact refusePending_follow s c _

theorem showMode_follow (s : State) (c : Chan) : s.ChannelsFollow (s.showMode c) := by
  have hg : s.GatesKept (s.showMode c) := by
    unfold showMode
    dsimp only
    split
    · refine GatesKept.trans ?_ (sendRecord_gates _ c _)
      refine ⟨fun d => ?_, fun _ => .same _⟩
      rw [chan_setChan]
      split
      · next h =>
        rw [h]
        exact ⟨rfl, rfl, rfl, rfl, rfl, rfl, rfl, rfl, rfl, rfl, rfl, rfl, rfl⟩
      · exact .same _
    · exact .same rfl rfl
  obtain ⟨k, p, h⟩ := showMode_frame s c
  rw [h] at hg ⊢
  exact ⟨hg, rfl, rfl, fun _ => .inl rfl⟩

theorem settleChannel_follow (s : State) (c : Chan) : s.ChannelsFollow (s.settleChannel c) :=
  (((takeState_follow s c).trans (reportState_follow _ _ c)).trans (tellArbiter_follow _ _ c)).trans
    (showMode_follow _ c)

theorem settleChannels_follow (s : State) : s.ChannelsFollow s.settleChannels :=
  (((settleChannel_follow s .c0).trans (settleChannel_follow _ .c1)).trans
    (settleChannel_follow _ .c2)).trans (settleChannel_follow _ .c3)

/-- The end of an event keeps gates and lines and only empties places of the pending set. -/
theorem settle_follow (before s : State) (after : List Notice) :
    s.ChannelsFollow (settle before s after) := by
  unfold settle
  obtain ⟨q0, h0⟩ := queueHeadroom_frame before s .b0
  obtain ⟨q1, h1⟩ := queueHeadroom_frame before (queueHeadroom before s .b0) .b1
  obtain ⟨q2, h2⟩ := queueAll_frame (queueHeadroom before (queueHeadroom before s .b0) .b1) after
  refine ChannelsFollow.trans ?_ (settleChannels_follow _)
  rw [h2, h1, h0]
  exact .same rfl rfl rfl

/-! ### Notices in order -/

/-- The notice queue after a notice is queued, or discarded where the queue is full (R175). -/
def addNotice (q : NoticeQueue) (n : Notice) : NoticeQueue :=
  if q.queue.length < Config.noticeQueueSize then
    { q with
      queue := q.queue ++ [(q.nextSeq, n)]
      nextSeq := if q.nextSeq = 65535 then 1 else q.nextSeq + 1 }
  else { q with dropped := true }

theorem queue_notices (s : State) (n : Notice) : (s.queue n).notices = addNotice s.notices n := by
  unfold queue addNotice
  split <;> rfl

theorem queueAll_notices (s : State) (ns : List Notice) :
    (s.queueAll ns).notices = ns.foldl addNotice s.notices := by
  unfold queueAll
  induction ns generalizing s with
  | nil => rfl
  | cons n ns ih => rw [List.foldl_cons, ih, queue_notices, List.foldl_cons]

/-- A full queue discards what is queued: it keeps its notices and its number, and the dropped mark is set. -/
theorem addNotices_full (q : NoticeQueue) (ns : List Notice) (full : Config.noticeQueueSize ≤ q.queue.length)
    (some_ : ns ≠ []) : ns.foldl addNotice q = { q with dropped := true } := by
  have one : ∀ n, addNotice q n = { q with dropped := true } := fun n => if_neg (Nat.not_lt.mpr full)
  have stay : ∀ ms : List Notice, ms.foldl addNotice { q with dropped := true } = { q with dropped := true } := by
    intro ms
    induction ms with
    | nil => rfl
    | cons m ms ih =>
      rw [List.foldl_cons]
      exact (congrArg (ms.foldl addNotice) (if_neg (Nat.not_lt.mpr full))).trans ih
  cases ns with
  | nil => exact absurd rfl some_
  | cons n ns => rw [List.foldl_cons, one, stay]

/-- What queueing several notices does: those that there is room for join the queue under consecutive numbers, and
where one finds the queue full the dropped mark is set. -/
theorem addNotices_queue (q : NoticeQueue) (ns : List Notice) (room : Nat)
    (h : room = Config.noticeQueueSize - q.queue.length) :
    (ns.foldl addNotice q).queue = q.queue ++ numbered q.nextSeq (ns.take room) ∧
    (room < ns.length → (ns.foldl addNotice q).dropped = true) := by
  induction ns generalizing q room with
  | nil => simp [numbered]
  | cons n ns ih =>
    rcases Nat.lt_or_ge q.queue.length Config.noticeQueueSize with hroom | hfull
    · obtain ⟨k, rfl⟩ : ∃ k, room = k + 1 := ⟨room - 1, by omega⟩
      have step : addNotice q n = { q with
          queue := q.queue ++ [(q.nextSeq, n)]
          nextSeq := if q.nextSeq = 65535 then 1 else q.nextSeq + 1 } := if_pos hroom
      have rest := ih (addNotice q n) k (by rw [step]; simp only [List.length_append, List.length_singleton]; omega)
      rw [List.foldl_cons]
      refine ⟨?_, fun hk => rest.2 (by simpa using hk)⟩
      rw [rest.1, step]
      simp [numbered]
    · have none : room = 0 := by omega
      rw [addNotices_full q (n :: ns) hfull (List.cons_ne_nil _ _), none]
      simp [numbered]

/-- What is queued stays queued. -/
theorem addNotices_extend (q : NoticeQueue) (ns : List Notice) :
    ∃ more, (ns.foldl addNotice q).queue = q.queue ++ more := ⟨_, (addNotices_queue q ns _ rfl).1⟩

/-- The notices of a state are those of another with more notices queued behind them. -/
def Extends (s t : State) : Prop := ∃ ns : List Notice, t.notices = ns.foldl addNotice s.notices

theorem Extends.trans {s t u : State} (h : s.Extends t) (g : t.Extends u) : s.Extends u := by
  obtain ⟨ns, h⟩ := h
  obtain ⟨ms, g⟩ := g
  exact ⟨ns ++ ms, by rw [List.foldl_append, ← h, g]⟩

theorem Extends.of_eq {s t : State} (h : t.notices = s.notices) : s.Extends t := ⟨[], h⟩

theorem queue_extends (s : State) (n : Notice) : s.Extends (s.queue n) := ⟨[n], queue_notices s n⟩

theorem queueAll_extends (s : State) (ns : List Notice) : s.Extends (s.queueAll ns) := ⟨ns, queueAll_notices s ns⟩

theorem queueHeadroom_extends (before s : State) (b : Berth) : s.Extends (queueHeadroom before s b) := by
  unfold queueHeadroom
  split
  · exact queue_extends s _
  · exact .of_eq rfl

theorem settleChannel_extends (s : State) (c : Chan) : s.Extends (s.settleChannel c) := by
  unfold settleChannel
  dsimp only
  have h1 : s.Extends (reportState s (s.takeState c) c) := by
    unfold reportState
    dsimp only
    split
    · exact queue_extends (s.takeState c) _
    · exact .of_eq rfl
  obtain ⟨a, k, p, h2⟩ := tellArbiter_frame s (reportState s (s.takeState c) c) c
  obtain ⟨k', p', h3⟩ := showMode_frame (tellArbiter s (reportState s (s.takeState c) c) c) c
  refine h1.trans ?_
  rw [h3, h2]
  exact .of_eq rfl

/-- The end of an event only adds notices behind those already queued. -/
theorem settle_extends (before s : State) (after : List Notice) : s.Extends (settle before s after) := by
  unfold settle
  exact ((queueHeadroom_extends before s .b0).trans (queueHeadroom_extends before _ .b1)).trans
    ((queueAll_extends _ after).trans ((((settleChannel_extends _ .c0).trans
      (settleChannel_extends _ .c1)).trans (settleChannel_extends _ .c2)).trans
      (settleChannel_extends _ .c3)))

/-- The notices queued first in an event stand first among the event's notices, or are discarded. -/
theorem queuesInOrder_of (s t : State) (ns : List Notice) (h : (s.queueAll ns).Extends t) :
    s.QueuesInOrder t ns := by
  obtain ⟨ms, h⟩ := h
  rw [queueAll_notices] at h
  rintro room rfl
  obtain ⟨hq, hd⟩ := addNotices_queue s.notices ns _ rfl
  obtain ⟨hq', hd'⟩ := addNotices_queue s.notices (ns ++ ms) _ rfl
  rw [List.foldl_append, ← h] at hq' hd'
  refine ⟨?_, fun past => ⟨?_, hd' (by rw [List.length_append]; omega), fun full => ?_⟩⟩
  · obtain ⟨more, h2⟩ := addNotices_extend (ns.foldl addNotice s.notices) ms
    rw [h, h2, hq]
    exact List.prefix_append _ _
  · rw [hq', List.take_append_of_le_length (Nat.le_of_lt past)]
  · rw [h, ← List.foldl_append, addNotices_full _ _ (by omega) (by
      intro e
      rw [List.append_eq_nil_iff] at e
      rw [e.1] at past
      exact absurd past (Nat.not_lt_zero _))]

/-- A notice queued first in an event stands first among the event's notices, or is discarded. -/
theorem queuesFirst_of (s t : State) (n : Notice) (h : (s.queue n).Extends t) : s.QueuesFirst t n := by
  obtain ⟨ms, h⟩ := h
  rw [queue_notices] at h
  constructor
  · intro room
    obtain ⟨more, h2⟩ := addNotices_extend (addNotice s.notices n) ms
    rw [h, h2]
    unfold addNotice
    rw [if_pos room]
    exact List.prefix_append _ _
  · intro full
    exact h.trans (addNotices_full s.notices (n :: ms) full (List.cons_ne_nil _ _))

end State

end Sys2Proof.Machine
end

