-- ==== Sys2Proof/Laws/PerInstr.lean ====
section
/-! SUPPORT. What holds of every command as syntax, one lemma per constructor: a request sent to broadcast is
of a kind that is executed when broadcast (R173). -/

namespace Sys2Proof.Laws.BroadcastKinds

open Sys2Proof.Machine

/-- A command that is a request sent to broadcast has one of the broadcast kinds (R173). -/
def Statement (i : Instr) : Prop := ∀ k, i.kind? = some k → i.isBroadcast = true → k.broadcast = true

/-- A command that is no request to broadcast meets the statement. -/
theorem of_not_broadcast {i : Instr} (h : i.isBroadcast = false) : Statement i := by
  intro k _ hb
  rw [h] at hb
  cases hb

/-- A command of a broadcast kind meets the statement. -/
theorem of_kind {i : Instr} {m : MsgKind} (h : i.kind? = some m) (hm : m.broadcast = true) : Statement i := by
  intro k hk _
  rw [h] at hk
  cases hk
  exact hm

theorem powerOn (found : Found) : Statement (.powerOn found) := of_not_broadcast rfl
theorem supplyDip : Statement .supplyDip := of_not_broadcast rfl
theorem supplyRecovered (found : Found) : Statement (.supplyRecovered found) := of_not_broadcast rfl
theorem commandStartUp (found : Found) : Statement (.commandStartUp found) := of_not_broadcast rfl
theorem poll (len : BodyLen) : Statement (.poll len) := of_not_broadcast rfl
theorem status (len : BodyLen) : Statement (.status len) := of_not_broadcast rfl
theorem statusClear (len : BodyLen) : Statement (.statusClear len) := of_not_broadcast rfl
theorem restart (len : BodyLen) : Statement (.restart len) := of_not_broadcast rfl
theorem unknownKind (kind : Nat) : Statement (.unknownKind kind) := of_not_broadcast rfl
theorem broadcastIgnored (kind : Nat) : Statement (.broadcastIgnored kind) := of_not_broadcast rfl
theorem busFrameDiscarded (why : BusDiscard) : Statement (.busFrameDiscarded why) := of_not_broadcast rfl
theorem clockSet (dest : Dest) (len : BodyLen) (day secs : Nat) :
    Statement (.clockSet dest len day secs) := of_kind rfl rfl
theorem clockSecond : Statement .clockSecond := of_not_broadcast rfl
theorem callOpen (len : BodyLen) (berth vessel line capacity declared dwell : Nat) :
    Statement (.callOpen len berth vessel line capacity declared dwell) := of_not_broadcast rfl
theorem boardStart (len : BodyLen) (berth vessel : Nat) :
    Statement (.boardStart len berth vessel) := of_not_broadcast rfl
theorem lastCall (len : BodyLen) (berth vessel : Nat) :
    Statement (.lastCall len berth vessel) := of_not_broadcast rfl
theorem castOff (len : BodyLen) (berth vessel : Nat) :
    Statement (.castOff len berth vessel) := of_not_broadcast rfl
theorem callCancel (len : BodyLen) (berth vessel : Nat) :
    Statement (.callCancel len berth vessel) := of_not_broadcast rfl
theorem callQuery (len : BodyLen) (berth : Nat) : Statement (.callQuery len berth) := of_not_broadcast rfl
theorem callCollect (len : BodyLen) (berth vessel : Nat) :
    Statement (.callCollect len berth vessel) := of_not_broadcast rfl
theorem aboardAdjust (len : BodyLen) (berth vessel : Nat) (delta : Int) :
    Statement (.aboardAdjust len berth vessel delta) := of_not_broadcast rfl
theorem channelQuery (len : BodyLen) (channel : Nat) :
    Statement (.channelQuery len channel) := of_not_broadcast rfl
theorem channelService (len : BodyLen) (channel : Nat) (value : Option ServiceFlag) :
    Statement (.channelService len channel value) := of_not_broadcast rfl
theorem channelRelease (len : BodyLen) (channel : Nat) (force : Option Bool) :
    Statement (.channelRelease len channel force) := of_not_broadcast rfl
theorem channelRestore (len : BodyLen) (target : RestoreTarget) :
    Statement (.channelRestore len target) := of_not_broadcast rfl
theorem egressEnter (dest : Dest) (len : BodyLen) : Statement (.egressEnter dest len) := of_kind rfl rfl
theorem egressClear (dest : Dest) (len : BodyLen) : Statement (.egressClear dest len) := of_kind rfl rfl
theorem loadBegin (dest : Dest) (len : BodyLen) (kind : Option LoadKind) (version count : Nat) (crc : BitVec 16) :
    Statement (.loadBegin dest len kind version count crc) := of_kind rfl rfl
theorem loadSegment (dest : Dest) (len : BodyLen) (index : Nat) (entries : List LoadEntry) :
    Statement (.loadSegment dest len index entries) := of_kind rfl rfl
theorem loadCommit (dest : Dest) (len : BodyLen) : Statement (.loadCommit dest len) := of_kind rfl rfl
theorem loadAbort (dest : Dest) (len : BodyLen) : Statement (.loadAbort dest len) := of_kind rfl rfl
theorem denyEdit (dest : Dest) (len : BodyLen) (op : Option DenyOp) (items : List DenyItem) :
    Statement (.denyEdit dest len op items) := of_kind rfl rfl
theorem tableQuery (len : BodyLen) (subject : Subject) :
    Statement (.tableQuery len subject) := of_not_broadcast rfl
theorem allotSet (len : BodyLen) (token : CardId) (line total block : Nat) (expiry : Option ClockTime) :
    Statement (.allotSet len token line total block expiry) := of_not_broadcast rfl
theorem allotRemove (len : BodyLen) (token : CardId) :
    Statement (.allotRemove len token) := of_not_broadcast rfl
theorem allotQuery (len : BodyLen) (key : AllotKey) :
    Statement (.allotQuery len key) := of_not_broadcast rfl
theorem referAnswer (len : BodyLen) (id : Nat) (verdict : Option AnswerVerdict) (fare extra : Nat) :
    Statement (.referAnswer len id verdict fare extra) := of_not_broadcast rfl
theorem deskCheck (line : Nat) (card : List Octet) :
    Statement (.deskCheck line card) := of_not_broadcast rfl
theorem settingsGet (len : BodyLen) (number : Nat) :
    Statement (.settingsGet len number) := of_not_broadcast rfl
theorem settingsSet (len : BodyLen) (number : Nat) (value : SettingValue) :
    Statement (.settingsSet len number value) := of_not_broadcast rfl
theorem settingsStore (len : BodyLen) : Statement (.settingsStore len) := of_not_broadcast rfl
theorem storeWriteEnd (readBack : StoredImage) : Statement (.storeWriteEnd readBack) := of_not_broadcast rfl
theorem settingsReload (len : BodyLen) : Statement (.settingsReload len) := of_not_broadcast rfl
theorem settingsDefault (len : BodyLen) : Statement (.settingsDefault len) := of_not_broadcast rfl
theorem present (c : Chan) (body : List Octet) : Statement (.present c body) := of_not_broadcast rfl
theorem withdraw (c : Chan) (body : List Octet) : Statement (.withdraw c body) := of_not_broadcast rfl
theorem writeResult (c : Chan) (body : List Octet) : Statement (.writeResult c body) := of_not_broadcast rfl
theorem alive (c : Chan) : Statement (.alive c) := of_not_broadcast rfl
theorem ready (c : Chan) : Statement (.ready c) := of_not_broadcast rfl
theorem readerFrameDiscarded (c : Chan) (why : ReaderDiscard) :
    Statement (.readerFrameDiscarded c why) := of_not_broadcast rfl
theorem readerFrameSent (c : Chan) : Statement (.readerFrameSent c) := of_not_broadcast rfl
theorem attachTimerExpiry (c : Chan) : Statement (.attachTimerExpiry c) := of_not_broadcast rfl
theorem readerInactivityExpiry (c : Chan) : Statement (.readerInactivityExpiry c) := of_not_broadcast rfl
theorem writeTimerExpiry (c : Chan) : Statement (.writeTimerExpiry c) := of_not_broadcast rfl
theorem validationCompletion : Statement .validationCompletion := of_not_broadcast rfl
theorem referralTimerExpiry (slot : Slot) : Statement (.referralTimerExpiry slot) := of_not_broadcast rfl
theorem supervisionTimerExpiry : Statement .supervisionTimerExpiry := of_not_broadcast rfl
theorem loadInactivityExpiry : Statement .loadInactivityExpiry := of_not_broadcast rfl
theorem dwellTimerExpiry (b : Berth) : Statement (.dwellTimerExpiry b) := of_not_broadcast rfl
theorem lastCallTimerExpiry (b : Berth) : Statement (.lastCallTimerExpiry b) := of_not_broadcast rfl
theorem reportTimerExpiry : Statement .reportTimerExpiry := of_not_broadcast rfl
theorem passWindowExpiry (c : Chan) : Statement (.passWindowExpiry c) := of_not_broadcast rfl
theorem suspensionTimerExpiry (c : Chan) : Statement (.suspensionTimerExpiry c) := of_not_broadcast rfl
theorem obstructionTimerExpiry (c : Chan) : Statement (.obstructionTimerExpiry c) := of_not_broadcast rfl
theorem minimumHoldExpiry : Statement .minimumHoldExpiry := of_not_broadcast rfl
theorem beamEvent (c : Chan) (beam : Beam) (broken : Bool) :
    Statement (.beamEvent c beam broken) := of_not_broadcast rfl
theorem rampUnsafe (c : Chan) : Statement (.rampUnsafe c) := of_not_broadcast rfl
theorem rampSafe (c : Chan) : Statement (.rampSafe c) := of_not_broadcast rfl
theorem evacuateActive : Statement .evacuateActive := of_not_broadcast rfl
theorem evacuateInactive : Statement .evacuateInactive := of_not_broadcast rfl
theorem busReplySent : Statement .busReplySent := of_not_broadcast rfl

end Sys2Proof.Laws.BroadcastKinds
end

