-- ==== Sys2Proof/Laws/Selection.lean ====
section
/-! SUPPORT. What a selection of the arbiter does: the candidates are the eligible pending presentations, the best of
them ranks before every other, and it is the one the engine takes. -/

namespace Sys2Proof.Machine

/-- A candidate ranks before another: higher effective level, aged, earlier arrival of two aged, fixed order (R93). -/
def Candidate.Before (x y : Candidate) : Prop :=
  y.effective < x.effective ∨ x.effective = y.effective ∧
    (x.aged = true ∧ y.aged = false ∨
      x.aged = true ∧ y.aged = true ∧
        (x.arrival < y.arrival ∨ x.arrival = y.arrival ∧ x.requester.order < y.requester.order) ∨
      x.aged = false ∧ y.aged = false ∧ x.requester.order < y.requester.order)

theorem Candidate.Before.trans {x y z : Candidate} (h : x.Before y) (g : y.Before z) : x.Before z := by
  revert h g
  unfold Candidate.Before
  cases x.aged <;> cases y.aged <;> cases z.aged <;> simp <;> omega

/-- The comparison of the ranking: a candidate later in the fixed order takes the place of an earlier one exactly
where it ranks before it. -/
theorem beats_iff {x y : Candidate} (h : x.requester.order < y.requester.order) :
    (y.beats x = true → y.Before x) ∧ (y.beats x = false → x.Before y) := by
  unfold Candidate.beats Candidate.Before
  rcases Nat.lt_trichotomy x.effective y.effective with he | he | he
  · have : y.effective ≠ x.effective := by omega
    simp [this, he]
  · cases x.aged <;> cases y.aged <;> simp [he] <;> omega
  · have : y.effective ≠ x.effective := by omega
    have hn : ¬x.effective < y.effective := by omega
    simp [this, he, hn]

/-- The first in the ranking of candidates that stand in the fixed order is one of them and ranks before every
other. -/
theorem bestOf_spec (l : List Candidate) (k : Candidate)
    (order : l.Pairwise fun x y => x.requester.order < y.requester.order) (h : bestOf l = some k) :
    k ∈ l ∧ ∀ x ∈ l, x = k ∨ k.Before x := by
  cases l with
  | nil => cases h
  | cons a as =>
    have fold : ∀ (ks : List Candidate) (b : Candidate), (∀ y ∈ ks, b.requester.order < y.requester.order) →
        (ks.Pairwise fun x y => x.requester.order < y.requester.order) →
        let r := ks.foldl (fun x y => if y.beats x then y else x) b
        (r = b ∨ r ∈ ks) ∧ (b = r ∨ r.Before b) ∧ ∀ y ∈ ks, y = r ∨ r.Before y := by
      intro ks
      induction ks with
      | nil => intro b _ _; exact ⟨.inl rfl, .inl rfl, fun _ h => nomatch h⟩
      | cons y ys ih =>
        intro b hb ho
        rw [List.pairwise_cons] at ho
        have hy := hb y (List.mem_cons_self ..)
        have hbys := fun z hz => hb z (List.mem_cons_of_mem _ hz)
        simp only [List.foldl_cons]
        split
        · rename_i hbeat
          obtain ⟨h1, h2, h3⟩ := ih y ho.1 ho.2
          have hyb := (beats_iff hy).1 hbeat
          refine ⟨.inr ?_, .inr ?_, ?_⟩
          · rcases h1 with h1 | h1
            · rw [h1]; exact List.mem_cons_self ..
            · exact List.mem_cons_of_mem _ h1
          · rcases h2 with h2 | h2
            · rw [← h2]; exact hyb
            · exact h2.trans hyb
          · intro z hz
            rcases List.mem_cons.mp hz with rfl | hz
            · exact h2
            · exact h3 z hz
        · rename_i hbeat
          obtain ⟨h1, h2, h3⟩ := ih b hbys ho.2
          have hby := (beats_iff hy).2 (by simpa using hbeat)
          refine ⟨h1.imp id (List.mem_cons_of_mem _), h2, ?_⟩
          intro z hz
          rcases List.mem_cons.mp hz with rfl | hz
          · right
            rcases h2 with h2 | h2
            · rw [← h2]; exact hby
            · exact h2.trans hby
          · exact h3 z hz
    rw [List.pairwise_cons] at order
    cases h
    obtain ⟨h1, h2, h3⟩ := fold as a order.1 order.2
    refine ⟨List.mem_cons.mpr h1, ?_⟩
    intro x hx
    rcases List.mem_cons.mp hx with rfl | hx
    · exact h2
    · exact h3 x hx

namespace State

theorem channelCandidate_order (s : State) (c : Chan) :
    ∀ x ∈ s.channelCandidate c, x.requester = .channel c := by
  intro x hx
  unfold channelCandidate at hx
  split at hx
  · cases hx
  · split at hx
    · rw [List.mem_singleton.mp hx]
    · cases hx

/-- What a candidate is: an eligible pending presentation with its level and whether it is aged (R91, R93). -/
theorem mem_candidates (s : State) (x : Candidate) (h : x ∈ s.candidates) :
    s.pendingSince x.requester = some x.arrival ∧ s.Eligible x.requester ∧
      (x.aged = true ↔ s.IsAged x.arrival) ∧ s.EffectiveLevel x.requester x.arrival x.effective := by
  unfold candidates at h
  rcases List.mem_append.mp h with h | h
  · obtain ⟨c, -, h⟩ := List.mem_flatMap.mp h
    unfold channelCandidate at h
    split at h
    · cases h
    · rename_i p hp
      split at h
      · rename_i room
        rw [List.mem_singleton.mp h]
        refine ⟨by simp [pendingSince, hp], room, decide_eq_true_iff, ?_⟩
        by_cases ha : s.IsAged p.arrival
        · exact .inl ⟨ha, by simp [Candidate.effective, show s.aged p.arrival = true from decide_eq_true ha]⟩
        · exact .inr ⟨ha, by simp [Candidate.effective, show s.aged p.arrival = false from decide_eq_false ha]⟩
      · cases h
  · unfold deskCandidate at h
    split at h
    · cases h
    · rename_i p hp
      rw [List.mem_singleton.mp h]
      refine ⟨by simp [pendingSince, hp], trivial, decide_eq_true_iff, ?_⟩
      by_cases ha : s.IsAged p.arrival
      · exact .inl ⟨ha, by simp [Candidate.effective, show s.aged p.arrival = true from decide_eq_true ha]⟩
      · exact .inr ⟨ha, by simp [Candidate.effective, show s.aged p.arrival = false from decide_eq_false ha]⟩

/-- An eligible pending presentation is a candidate. -/
theorem candidate_of (s : State) (q : Requester) (since : Nat) (h : s.pendingSince q = some since)
    (e : s.Eligible q) : ∃ x ∈ s.candidates, x.requester = q ∧ x.arrival = since := by
  cases q with
  | channel c =>
    cases hp : s.arbiter.places.get c with
    | none => simp [pendingSince, hp] at h
    | some p =>
      simp only [pendingSince, hp, Option.map_some, Option.some.injEq] at h
      refine ⟨⟨.channel c, s.cfg.level.get c, s.aged p.arrival, p.arrival⟩, ?_, rfl, h⟩
      refine List.mem_append_left _ (List.mem_flatMap.mpr ⟨c, by cases c <;> decide, ?_⟩)
      have one : s.channelCandidate c = [⟨.channel c, s.cfg.level.get c, s.aged p.arrival, p.arrival⟩] := by
        unfold channelCandidate
        rw [hp]
        exact if_pos e
      rw [one]
      exact List.mem_singleton.mpr rfl
  | desk line =>
    cases hp : s.arbiter.desk with
    | none => simp [pendingSince, hp] at h
    | some p =>
      simp only [pendingSince, hp] at h
      split at h
      · rename_i hl
        refine ⟨⟨.desk p.line, s.cfg.deskLevel, s.aged p.arrival, p.arrival⟩,
          List.mem_append_right _ ?_, by rw [hl], Option.some.inj h⟩
        unfold deskCandidate
        rw [hp]
        exact List.mem_singleton.mpr rfl
      · cases h

/-- Candidates stand in the fixed order (R93). -/
theorem candidates_order (s : State) :
    s.candidates.Pairwise fun x y => x.requester.order < y.requester.order := by
  have one : ∀ c, (s.channelCandidate c).Pairwise fun x y => x.requester.order < y.requester.order := by
    intro c
    unfold channelCandidate
    split
    · exact .nil
    · split
      · exact List.pairwise_singleton ..
      · exact .nil
  have deskOne : s.deskCandidate.Pairwise fun x y => x.requester.order < y.requester.order := by
    unfold deskCandidate
    split
    · exact .nil
    · exact List.pairwise_singleton ..
  have deskOrder : ∀ x ∈ s.deskCandidate, x.requester.order = 4 := by
    intro x hx
    unfold deskCandidate at hx
    split at hx
    · cases hx
    · rw [List.mem_singleton.mp hx]; rfl
  unfold candidates
  rw [List.pairwise_append]
  refine ⟨?_, deskOne, ?_⟩
  · rw [List.pairwise_flatMap]
    refine ⟨fun c _ => one c, ?_⟩
    have chans : Chan.all.Pairwise fun c d => c.num < d.num := by decide
    refine chans.imp ?_
    intro c d hcd x hx y hy
    rw [channelCandidate_order s c x hx, channelCandidate_order s d y hy]
    exact hcd
  · intro x hx y hy
    obtain ⟨c, -, hx⟩ := List.mem_flatMap.mp hx
    rw [channelCandidate_order s c x hx, deskOrder y hy]
    cases c <;> decide

/-- A selection with an eligible presentation pending takes the first in the ranking: its place is empty, a channel's
tally rises, and the rest of the part is kept (R92 to R94, R102). -/
theorem select_took (s : State) (free : s.engine.work = none) (some_ : s.candidates ≠ []) :
    ∃ w since, s.select.Took w since ∧ s.pendingSince w.requester = some since ∧
      (∀ c, w.requester = .channel c → s.arbiter.places.get c = some ⟨w.card, since⟩ ∧
        (s.select.chan c).tallies.taken = bump (s.chan c).tallies.taken) ∧
      ∀ line, w.requester = .desk line → s.arbiter.desk = some ⟨w.card, line, since⟩ := by
  obtain ⟨k, hk⟩ : ∃ k, bestOf s.candidates = some k := by
    cases h : s.candidates with
    | nil => exact absurd h some_
    | cons a as => exact ⟨_, rfl⟩
  obtain ⟨hmem, hbest⟩ := bestOf_spec _ k s.candidates_order hk
  obtain ⟨hp, he, ha, hl⟩ := s.mem_candidates k hmem
  have hs : s.select = s.handOver k.requester := by
    unfold select
    rw [free, hk]
    rfl
  have rank : ∀ r since', s.pendingSince r = some since' → s.Eligible r → r ≠ k.requester →
      s.RanksBefore k.requester k.arrival r since' := by
    intro r since' hr er hne
    obtain ⟨x, hx, rfl, rfl⟩ := s.candidate_of r since' hr er
    obtain ⟨-, -, hax, hlx⟩ := s.mem_candidates x hx
    have hb := (hbest x hx).resolve_left fun e => hne (congrArg Candidate.requester e)
    intro n m hn hm
    have level : ∀ {q a n m}, s.EffectiveLevel q a n → s.EffectiveLevel q a m → n = m := by
      intro q a n m h g
      rcases h with ⟨h1, h2⟩ | ⟨h1, h2⟩ <;> rcases g with ⟨g1, g2⟩ | ⟨g1, g2⟩ <;> first
        | exact h2.trans g2.symm
        | exact absurd h1 g1
        | exact absurd g1 h1
    rw [level hn hl, level hm hlx, ← ha, ← hax, Bool.not_eq_true, Bool.not_eq_true]
    exact hb
  cases hq : k.requester with
  | channel c =>
    rw [hq] at hs hp he rank
    cases hpl : s.arbiter.places.get c with
    | none => simp [pendingSince, hpl] at hp
    | some p =>
      have hpa : p.arrival = k.arrival := by simpa [pendingSince, hpl] using hp
      have hh : s.handOver (.channel c) = (({ s with arbiter := { s.arbiter with
          places := s.arbiter.places.set c none } } : State).setTallies c { (s.chan c).tallies with
            taken := bump (s.chan c).tallies.taken }).takeWork (.channel c) p.card := by
        unfold handOver
        simp only [hpl]
      refine ⟨⟨.channel c, p.card, s.snapshot, false, .none⟩, k.arrival, ?_, hp, ?_, fun _ h => nomatch h⟩
      · rw [hs, hh]
        refine ⟨rfl, he, ?_, ?_⟩
        · cases c <;> rfl
        · intro r since' hr er
          have hr' : r ≠ .channel c ∧ s.pendingSince r = some since' := by
            cases r with
            | channel d =>
              have hd : d ≠ c := by
                rintro rfl
                cases d <;> exact nomatch hr
              refine ⟨fun e => hd (Requester.channel.inj e), ?_⟩
              cases c <;> cases d <;> first
                | exact hr
                | exact absurd rfl hd
            | desk line => exact ⟨(nomatch ·), hr⟩
          exact rank r since' hr'.2 er hr'.1
      · intro d hd
        cases hd
        rw [hs, hh]
        exact ⟨by rw [hpl, ← hpa], by cases c <;> rfl⟩
  | desk line =>
    rw [hq] at hs hp he rank
    cases hpl : s.arbiter.desk with
    | none => simp [pendingSince, hpl] at hp
    | some p =>
      simp only [pendingSince, hpl] at hp
      split at hp
      · rename_i hline
        subst hline
        have hh : s.handOver (.desk p.line) = ({ s with arbiter := { s.arbiter with desk := none } } : State).takeWork
            (.desk p.line) p.card := by
          unfold handOver
          simp only [hpl]
        refine ⟨⟨.desk p.line, p.card, s.snapshot, false, .none⟩, k.arrival, ?_, ?_, (fun _ h => nomatch h), ?_⟩
        · rw [hs, hh]
          refine ⟨rfl, he, rfl, ?_⟩
          intro r since' hr er
          cases r with
          | channel d => exact rank (.channel d) since' hr er (nomatch ·)
          | desk l => exact nomatch hr
        · simp only [pendingSince, hpl, if_true]
          exact hp
        · intro l hl
          cases hl
          rw [← Option.some.inj hp]
      · cases hp

end State

end Sys2Proof.Machine
end

