-- ==== Sys2Proof/Laws/Stages.lean ====
section
/-! SUPPORT. What the engine's lookups find: the newest journey entry of a card, stage 4, what the stages
decide for a card that passes the earlier ones, the last element that a change reaches, what a POLL takes, and
what a fallback leaves unchanged. -/

namespace Sys2Proof.Machine

/-! ### The last element of a list -/

/-- Where no element meets the test the list is kept. -/
theorem modifyLast_of_none {α : Type} (p : α → Bool) (f : α → α) (l : List α) (h : ∀ x ∈ l, p x = false) :
    modifyLast p f l = l := by
  cases l with
  | nil => rfl
  | cons x xs => simp_all [modifyLast]

/-- The element that meets the test, with none after it, is the one that changes. -/
theorem modifyLast_append {α : Type} (p : α → Bool) (f : α → α) (xs ys : List α) (e : α) (he : p e = true)
    (hy : ∀ y ∈ ys, p y = false) : modifyLast p f (xs ++ e :: ys) = xs ++ f e :: ys := by
  induction xs with
  | nil => simp_all [modifyLast]
  | cons x xs ih => simp [modifyLast, ih, he]

/-! ### The journey list and stage 4 -/

/-- The newest journey entry of a card is what the lookup finds. -/
theorem State.newestIs_iff (s : State) (id : CardId) (e : JourneyEntry) :
    s.NewestIs id e ↔ s.newestEntry id = some e := by
  unfold State.NewestIs State.newestEntry
  rw [List.find?_eq_some_iff_append]
  simp only [decide_eq_true_eq, Bool.not_eq_true', decide_eq_false_iff_not]
  constructor
  · rintro ⟨xs, ys, h, hc, hy⟩
    refine ⟨hc, ys.reverse, xs.reverse, by simp [h], ?_⟩
    simpa using hy
  · rintro ⟨hc, as, bs, h, hy⟩
    refine ⟨bs.reverse, as.reverse, ?_, hc, by simpa using hy⟩
    have := congrArg List.reverse h
    simpa using this

/-- The lookup finds nothing where the list has no entry of the card. -/
theorem State.newestEntry_eq_none_iff (s : State) (id : CardId) :
    (∀ e ∈ s.engine.journey, e.card ≠ id) ↔ s.newestEntry id = none := by
  unfold State.newestEntry
  simp

/-- Stage 4 passes a card exactly where its finding is `pass`, or `mismatch` for a recovery test not met (R108). -/
theorem State.journeyPasses_iff (s : State) (card : Card) (line : Nat) (m : Bool) :
    s.JourneyPasses card line m ↔ s.journeyFinding card line = (if m then .mismatch else .pass) := by
  unfold State.journeyFinding
  constructor
  · intro h
    cases h
    case noEntry h => rw [(State.newestEntry_eq_none_iff _ _).1 h]; rfl
    case resolved e hn ho => rw [(State.newestIs_iff _ _ _).1 hn]; simp [ho]
    case longAgo e hn ho ha =>
      rw [(State.newestIs_iff _ _ _).1 hn]
      rcases ho with ho | ho <;> simp only [ho] <;> rw [if_neg (by omega)] <;> rfl
    case pastGrace e hn ho ha =>
      rw [(State.newestIs_iff _ _ _).1 hn]
      rcases ho with ho | ho <;> simp only [ho]
      · rw [if_neg (by omega)]; rfl
      · rw [if_neg (by simp; omega)]; rfl
    case otherLine e hn ho hl =>
      rw [(State.newestIs_iff _ _ _).1 hn]
      simp [ho, hl]
    case mismatch e hn ho ha hl =>
      rw [(State.newestIs_iff _ _ _).1 hn]
      simp only [ho]
      rw [if_pos ha]
      cases hc : card.last with
      | none => rfl
      | some l =>
        have := hl l hc
        simp only
        rw [if_neg (by grind)]; rfl
  · intro h
    split at h
    · next hn =>
      have := (State.newestEntry_eq_none_iff _ _).2 hn
      cases m <;> simp_all
      exact .noEntry this
    · next e hn =>
      have hn := (State.newestIs_iff _ _ _).2 hn
      dsimp only at h
      split at h
      · next ho =>
        split at h
        · next hg =>
          cases hl : card.last with
          | none =>
            simp [hl] at h
            cases m <;> simp_all
            exact .mismatch e hn ho hg (by simp [hl])
          | some l =>
            simp only [hl] at h
            split at h
            · cases m <;> simp_all
            · next hc =>
              cases m <;> simp_all
              refine .mismatch e hn ho hg ?_
              intro l' hl'
              rw [hl] at hl'
              cases hl'
              grind
        · cases m <;> simp_all
          exact .pastGrace e hn (.inl ho) (by omega)
      · next ho =>
        split at h
        · cases m <;> simp_all
        · next hc =>
          cases m <;> simp_all
          by_cases hl : e.line = line
          · exact .pastGrace e hn (.inr ho) (by grind)
          · exact .otherLine e hn ho hl
      · next ho =>
        split at h
        · cases m <;> simp_all
        · cases m <;> simp_all
          exact .longAgo e hn (.inl ho) (by omega)
      · next ho =>
        split at h
        · cases m <;> simp_all
        · cases m <;> simp_all
          exact .longAgo e hn (.inr ho) (by omega)
      · next ho =>
        cases m <;> simp_all
        exact .resolved e hn ho

/-! ### The stages, from a card that passes the earlier ones -/

/-- What is left to decide for a card that stages 1 to 3 pass (R106, R107). -/
theorem State.decideCard_of_passes (s : State) (card : Card) (snap : Snapshot) (line : Nat) (table tariff)
    (hr : snap.Passes card table tariff) :
    s.decideCard card snap line = match s.allotOf card.id with
        | some a => (decideAllotment (snap.applied a) s.clock line, false)
        | none =>
          match s.journeyFinding card line with
          | .passback => (.refuse .passback, false)
          | .reuse => (.accept .reused, false)
          | .mismatch => (decideByProduct table tariff snap.clock line card, true)
          | .pass => (decideByProduct table tariff snap.clock line card, false) := by
  obtain ⟨h1, h2, h3, h4, h5⟩ := hr
  have h5' : (snap.deny.find? fun e => e.id = card.id) = none := by simpa using h5
  unfold State.decideCard
  simp only [h1, h2, h3, h4, h5']
  rfl

/-- What is left to decide for a card that stages 1 to 5 pass on to the product stages. -/
theorem State.decideCard_of_reachesProduct (s : State) (card : Card) (snap : Snapshot) (line : Nat) (m : Bool)
    (table tariff) (hr : s.ReachesProduct card snap line m table tariff) :
    s.decideCard card snap line = (decideByProduct table tariff snap.clock line card, m) := by
  obtain ⟨⟨h1, h2, h3, h4, h5⟩, h6, h7⟩ := hr
  have h5' : (snap.deny.find? fun e => e.id = card.id) = none := by simpa using h5
  have h7' := (State.journeyPasses_iff _ _ _ _).1 h7
  unfold State.decideCard
  simp only [h1, h2, h3, h4, h5', h6, h7']
  cases m <;> rfl

/-- What is left to decide for a card that stages 1 to 7 pass on to stage 8. -/
theorem State.decideCard_of_reachesKind (s : State) (card : Card) (snap : Snapshot) (line : Nat) (m : Bool) (tariff p)
    (hr : s.ReachesKind card snap line m tariff p) :
    s.decideCard card snap line = (decideProduct p tariff snap.clock line card, m) := by
  obtain ⟨⟨table, hr, hp⟩, hl⟩ := hr
  rw [State.decideCard_of_reachesProduct _ _ _ _ _ _ _ hr]
  unfold decideByProduct findProduct
  rw [hp]
  have : lineSetPasses p.lines line = true := by
    unfold lineSetPasses
    rcases hl with ⟨h, h1, h2⟩ | ⟨ls, h, h1⟩ <;> rw [h] <;> simp [within, *]
  simp [this]

/-! ### What a POLL takes -/

/-- What a POLL takes and what it leaves make up the queue. -/
theorem takeNotices_split (k : NoticeLayout) (items used : Nat) (q : List (Nat × Notice)) :
    ∃ taken, q = taken ++ (takeNotices k items used q).2 ∧ taken.length ≤ items ∧
      (takeNotices k items used q).1 = taken.map fun n => .notice n.1 n.2 := by
  induction q generalizing items used with
  | nil => exact ⟨[], by simp [takeNotices], by simp, by simp [takeNotices]⟩
  | cons n q ih =>
    cases items with
    | zero => exact ⟨[], by simp [takeNotices], by simp, by simp [takeNotices]⟩
    | succ items =>
      simp only [takeNotices]
      split
      · exact ⟨[], rfl, by simp, rfl⟩
      · obtain ⟨taken, h, hl, ht⟩ := ih items (used + k.itemOctets n.2.code)
        exact ⟨n :: taken, by rw [List.cons_append, ← h], by simpa using hl, by simp [ht]⟩

/-! ### A case decided at once -/

/-- A case referred with the host SILENT or both slots held is decided by its fallback (R151). -/
theorem State.referCase_atOnce (s : State) (c : Chan) (card : Card) (cause : Cause) (block : Nat)
    (h : s.bus.silent = true ∨ ∀ i, s.slot i ≠ none) :
    s.referCase c card cause block =
      ((s.fallback c card cause block).state, (s.fallback c card cause block).after) := by
  unfold State.referCase
  split
  · rename_i i b hi _
    rcases h with h | h
    · rw [if_pos h]
    · have h0 : s.engine.slot0.isNone = false := Option.isNone_eq_false_iff.2 (Option.isSome_iff_ne_none.2 (h .s0))
      have h1 : s.engine.slot1.isNone = false := Option.isNone_eq_false_iff.2 (Option.isSome_iff_ne_none.2 (h .s1))
      simp [State.freeSlot, h0, h1] at hi
  · rfl

/-- The block size that a case is referred with is the one that Safety gives it. -/
theorem State.BlockIs.blockOf_eq {s : State} {card : Card} {snap : Snapshot} {block : Nat}
    (h : s.BlockIs card snap block) : s.blockOf card snap = block := by
  unfold State.blockOf
  rcases h with ⟨h, rfl⟩ | ⟨a, h, rfl⟩ <;> rw [h]

/-- The terms of a fallback ACCEPT are those that Table 9-2 asks for. -/
theorem fallbackTerms_of_askedBy {block : Nat} {cause : Cause} {kind : ClaimKind} {seats : Nat} {partialOk : Bool}
    {code : VerdictCode} (h : askedBy block cause.kind = (kind, seats, partialOk, code)) :
    State.fallbackTerms block cause = { Terms.plain code kind with seats := seats, partialOk := partialOk } := by
  cases cause <;> cases h <;> rfl

/-! ### What a fallback leaves unchanged -/

@[simp] theorem State.withLine_calls (s u : State) (c : Chan) : (s.withLine u c).calls = s.calls := rfl
@[simp] theorem State.withLine_claims (s u : State) (c : Chan) : (s.withLine u c).claims = s.claims := rfl
@[simp] theorem State.withLine_engine (s u : State) (c : Chan) : (s.withLine u c).engine = s.engine := rfl
@[simp] theorem State.withLine_tables (s u : State) (c : Chan) : (s.withLine u c).tables = s.tables := rfl
@[simp] theorem State.withLine_settings (s u : State) (c : Chan) : (s.withLine u c).settings = s.settings := rfl
@[simp] theorem State.withLine_egress (s u : State) (c : Chan) : (s.withLine u c).egress = s.egress := rfl
@[simp] theorem State.withLine_notices (s u : State) (c : Chan) : (s.withLine u c).notices = s.notices := rfl
@[simp] theorem State.withLine_clock (s u : State) (c : Chan) : (s.withLine u c).clock = s.clock := rfl
@[simp] theorem State.tagged_calls (s : State) (c : Chan) : (s.tagged c).calls = s.calls := rfl
@[simp] theorem State.tagged_claims (s : State) (c : Chan) : (s.tagged c).claims = s.claims := rfl
@[simp] theorem State.tagged_tables (s : State) (c : Chan) : (s.tagged c).tables = s.tables := rfl
@[simp] theorem State.tagged_settings (s : State) (c : Chan) : (s.tagged c).settings = s.settings := rfl
@[simp] theorem State.tagged_egress (s : State) (c : Chan) : (s.tagged c).egress = s.egress := rfl
@[simp] theorem State.tagged_notices (s : State) (c : Chan) : (s.tagged c).notices = s.notices := rfl
@[simp] theorem State.tagged_clock (s : State) (c : Chan) : (s.tagged c).clock = s.clock := rfl

/-- A fallback moves no call, table, setting, egress state, notice or clock. -/
theorem State.FallsBack.keeps {s u : State} {r : Referral} {code : VerdictCode} (h : s.FallsBack u r code) :
    u.calls = s.calls ∧ u.tables = s.tables ∧ u.settings = s.settings ∧ u.egress = s.egress ∧
      u.notices = s.notices ∧ u.clock = s.clock := by
  cases h with
  | refused _ hu _ => rw [hu]; exact ⟨rfl, rfl, rfl, rfl, rfl, rfl⟩
  | stageNine _ _ _ hu _ => rw [hu]; exact ⟨rfl, rfl, rfl, rfl, rfl, rfl⟩
  | full _ _ _ _ _ _ _ _ _ hu _ => rw [hu]; exact ⟨rfl, rfl, rfl, rfl, rfl, rfl⟩
  | granted _ _ _ _ _ _ _ _ _ _ _ hu _ => rw [hu]; exact ⟨rfl, rfl, rfl, rfl, rfl, rfl⟩

/-- Resolving a slot's case by fallback moves none of them either, whether or not the slot holds one. -/
theorem State.SlotFallsBack.keeps {s u : State} {o : Option Referral} (h : s.SlotFallsBack u o) :
    u.calls = s.calls ∧ u.tables = s.tables ∧ u.settings = s.settings ∧ u.egress = s.egress ∧
      u.notices = s.notices ∧ u.clock = s.clock := by
  cases o with
  | none => cases h; exact ⟨rfl, rfl, rfl, rfl, rfl, rfl⟩
  | some r => exact h.elim fun _ hf => hf.keeps

end Sys2Proof.Machine
end

