-- ==== Sys2Proof/Tests/Slice0.lean ====
section
/-! SUPPORT. Tests: an ill-formed command for each check of well-formedness, the manual's worked cases, one
step of some commands, and for each statement of the certificates states that meet its hypotheses. -/

namespace Sys2Proof.Tests

open Sys2Proof Sys2Proof.Machine

/-! ### Ill-formed commands are refused -/

/-- A long run of octets. -/
def long (n : Nat) : List Octet := List.replicate n 0

theorem long_length (n : Nat) : (long n).length = n := List.length_replicate

theorem test_wf_known_kind_is_not_unknown : (Instr.unknownKind 0x01).wf = false := by decide
theorem test_wf_reply_kind_is_not_unknown : (Instr.unknownKind 0x80).wf = false := by decide
theorem test_wf_unknown_kind : (Instr.unknownKind 0x05).wf = true := by decide
theorem test_wf_broadcast_kind_is_not_ignored : (Instr.broadcastIgnored 0x28).wf = false := by decide
theorem test_wf_ignored_kind : (Instr.broadcastIgnored 0x10).wf = true := by decide
theorem test_wf_ignored_kind_octet : (Instr.broadcastIgnored 256).wf = false := by decide
theorem test_wf_clock_day : (Instr.clockSet .part .fits 65536 0).wf = false := by decide
theorem test_wf_clock_seconds : (Instr.clockSet .part .fits 0 4294967296).wf = false := by decide
theorem test_wf_call_berth : (Instr.callOpen .fits 256 1 1 1 0 30).wf = false := by decide
theorem test_wf_call_vessel : (Instr.callOpen .fits 0 65536 1 1 0 30).wf = false := by decide
theorem test_wf_call_line : (Instr.callOpen .fits 0 1 256 1 0 30).wf = false := by decide
theorem test_wf_call_capacity : (Instr.callOpen .fits 0 1 1 65536 0 30).wf = false := by decide
theorem test_wf_call_declared : (Instr.callOpen .fits 0 1 1 1 65536 30).wf = false := by decide
theorem test_wf_call_dwell : (Instr.callOpen .fits 0 1 1 1 0 65536).wf = false := by decide
theorem test_wf_message_berth : (Instr.boardStart .fits 256 1).wf = false := by decide
theorem test_wf_message_vessel : (Instr.callCollect .fits 0 65536).wf = false := by decide
theorem test_wf_query_berth : (Instr.callQuery .fits 256).wf = false := by decide
theorem test_wf_adjust_delta : (Instr.aboardAdjust .fits 0 1 2147483648).wf = false := by decide
theorem test_wf_channel : (Instr.channelService .fits 256 none).wf = false := by decide
theorem test_wf_restore_channel : (Instr.channelRestore .fits (.one 256)).wf = false := by decide
theorem test_wf_load_version : (Instr.loadBegin .part .fits none 65536 0 0).wf = false := by decide
theorem test_wf_load_count : (Instr.loadBegin .part .fits none 0 65536 0).wf = false := by decide
theorem test_wf_segment_index : (Instr.loadSegment .part .fits 65536 []).wf = false := by decide
theorem test_wf_segment_octets :
    (Instr.loadSegment .part .fits 0 [⟨long 251, .line 1 1⟩]).wf = false := by
  simp [Instr.wf, entriesFit, bodyFits, long_length, Config.maxBody]
theorem test_wf_segment_entry : (Instr.loadSegment .part .fits 0 [⟨[], .line 1 1⟩]).wf = false := by decide
theorem test_wf_segment_content :
    (Instr.loadSegment .part .fits 0 [⟨[0], .line 256 1⟩]).wf = false := by decide
theorem test_wf_segment_lines :
    (Instr.loadSegment .part .fits 0 [⟨[0], .product 1 none 0 (.lines [256])⟩]).wf = false := by decide
theorem test_wf_edit_items :
    (Instr.denyEdit .part .fits none ((long 251).map fun _ => ⟨1, none, none⟩)).wf = false := by
  rw [Instr.wf, decide_eq_false_iff_not, List.length_map, long_length]
  decide
theorem test_wf_table_product : (Instr.tableQuery .fits (.product 256)).wf = false := by decide
theorem test_wf_allot_line : (Instr.allotSet .fits 1 256 1 1 none).wf = false := by decide
theorem test_wf_allot_expiry : (Instr.allotSet .fits 1 0 1 1 (some ⟨65536, 0⟩)).wf = false := by decide
theorem test_wf_allot_index : (Instr.allotQuery .fits (.index 256)).wf = false := by decide
theorem test_wf_answer_fare : (Instr.referAnswer .fits 1 none 65536 0).wf = false := by decide
theorem test_wf_desk_line : (Instr.deskCheck 256 []).wf = false := by decide
theorem test_wf_desk_card : (Instr.deskCheck 1 (long 250)).wf = false := by
  simp [Instr.wf, long_length, Config.maxBody]
theorem test_wf_setting_number : (Instr.settingsSet .fits 256 .noBerth).wf = false := by decide
theorem test_wf_setting_value : (Instr.settingsSet .fits 1 (.num 65536)).wf = false := by decide
theorem test_wf_present_body : (Instr.present .c0 (long 251)).wf = false := by
  simp [Instr.wf, bodyFits, long_length, Config.maxBody]

/-! ### The manual's worked cases -/

/-- The CRC's polynomial and initial value give 29B1h for the digits 1 to 9: general knowledge of this CRC. -/
theorem test_crc : crc16 [0x31, 0x32, 0x33, 0x34, 0x35, 0x36, 0x37, 0x38, 0x39] = 0x29B1#16 := by decide +kernel

/-- The tariff of the standard case (7.10), on every line and class. -/
def tariff : Tariff :=
  ⟨31, ⟨0, 0⟩, List.replicate 63 380, [⟨420, 570, 125⟩], List.replicate 8 ⟨50, 600⟩, 5, 60, 150, 200⟩

/-- The take of the standard case: 08:10 on day 9301. -/
def taken : Option ClockTime := some ⟨9301, 29400⟩

/-- The card of the standard case, with its balance, its daily total and the seconds, line and fare of its
last boarding. -/
def cardWith (balance : Int) (daily day secs line fare : Nat) : Card :=
  ⟨77, 1, false, some ⟨balance, daily, day⟩, none, none, some ⟨9301, secs, line, 5, fare, 540⟩⟩

/-- The stored-value computation for a card on line 7, class 2. -/
def pay (t : Tariff) (clock : Option ClockTime) (k : Card) : Option (Nat × ValuePart) :=
  k.value.bind fun v => storedValueFare t 7 2 clock k v

/-- Table 7-3. -/
theorem test_fare_standard :
    pay tariff taken (cardWith 120 540 9301 28200 12 190) = some (60, ⟨60, 600, 9301⟩) := by decide

/-- Table 7-4, lines 1 to 4. -/
theorem test_fare_variations :
    pay tariff taken (cardWith 120 540 9300 28200 12 190) = some (85, ⟨35, 85, 9301⟩) ∧
    pay tariff (some ⟨9301, 34200⟩) (cardWith 120 540 9301 28200 12 190) = some (60, ⟨60, 600, 9301⟩) ∧
    pay tariff taken (cardWith 120 540 9301 25500 12 190) = some (60, ⟨60, 600, 9301⟩) ∧
    pay tariff taken (cardWith 120 540 9301 28200 7 190) = some (60, ⟨60, 600, 9301⟩) := by decide

/-- Table 7-4, lines 5 to 7. -/
theorem test_fare_other_tariffs :
    pay { tariff with classes := List.replicate 8 ⟨33, 0⟩, unit := 10 } taken
      (cardWith 120 540 9301 28200 12 190) = some (160, ⟨-40, 700, 9301⟩) ∧
    pay { tariff with classes := List.replicate 8 ⟨33, 0⟩, unit := 10, overdraft := 0 } taken
      (cardWith 120 540 9301 28200 12 190) = none ∧
    pay { tariff with creditCap := 2000 } taken (cardWith 120 540 9301 28200 12 500) =
      some (0, ⟨120, 540, 9301⟩) := by decide

/-- Table 7-5: the clock UNSET. -/
theorem test_fare_unset :
    pay tariff none (cardWith 120 540 9301 28200 12 190) = some (190, ⟨-70, 540, 9301⟩) := by decide

/-- The tariff of Table 7-6, with a discount and a cap. -/
def dear (discount cap : Nat) : Tariff :=
  { tariff with
    base := List.replicate 63 2000, bands := [⟨420, 570, 250⟩], classes := List.replicate 8 ⟨discount, cap⟩,
    unit := 10, window := 0 }

/-- Table 7-6. -/
theorem test_fare_limits :
    pay (dear 100 0) taken (cardWith (-9999) 0 0 0 12 0) = some (0, ⟨-9999, 0, 9301⟩) ∧
    pay (dear 0 10000) taken (cardWith 4800 0 0 0 12 0) = some (5000, ⟨-200, 5000, 9301⟩) ∧
    pay (dear 0 10000) taken (cardWith 4799 0 0 0 12 0) = none ∧
    pay (dear 0 0) taken (cardWith 9000 65530 9301 0 12 0) = some (5000, ⟨4000, 65535, 9301⟩) := by decide

/-- Table 7-7. -/
theorem test_fare_overdrawn :
    pay { tariff with overdraft := 500 } taken (cardWith (-450) 540 9301 28200 12 190) = none ∧
    pay { tariff with overdraft := 500 } taken (cardWith (-450) 600 9301 28200 12 190) =
      some (0, ⟨-450, 600, 9301⟩) := by decide

/-- The tracker after beam events, with the passages completed. -/
def track : Tracker → List (Beam × Bool) → Tracker × List Direction
  | k, [] => (k, [])
  | k, e :: es =>
    match k.move e.1 e.2 with
    | none => track k es
    | some (n, p) => ((track n es).1, p.toList ++ (track n es).2)

/-- Table 3-8, events 1 to 8: two persons close together make one inward passage. -/
theorem test_tracker_two_persons :
    track .clear [(.shore, true), (.vessel, true), (.shore, false), (.shore, true), (.vessel, false)] =
      (.outer, []) ∧
    track .outer [(.vessel, true), (.shore, false), (.vessel, false)] = (.clear, [.inward]) := by decide

/-- Table 3-8, events 9 to 12: a person who turns back makes none. -/
theorem test_tracker_turning_back :
    track .clear [(.vessel, true), (.shore, true), (.shore, false), (.vessel, false)] = (.clear, []) := by
  decide

/-- The boarded counts, all of one kind. -/
def paidBoarded (n : Nat) : Boarded := { Boarded.zero with paid := n }

/-- A part with call 2203 of line 7 BOARDING at berth 0: declared, boarded and alighted passengers, capacity
50. -/
def aboardWith (declared boarded alighted : Nat) : State :=
  { State.reset with
    calls := State.reset.calls.set .b0 { Call.zeroed with
      state := .boarding
      vessel := 2203
      line := 7
      capacity := 50
      declared := declared
      boarded := paidBoarded boarded
      alighted := alighted
      dwellLimit := 90 }
    callTimers := State.reset.callTimers.set .b0 ⟨some 90000, none⟩ }

/-- Whether an outcome is a given next state. -/
def goesTo (o : Result) (s : State) : Bool :=
  match o with
  | .next t => t = s
  | _ => false

/-- The record of berth 0 after a step that answers next. -/
def callAfter (o : Result) : Option Call :=
  match o with
  | .next t => some (t.call .b0)
  | _ => none

/-- Declared, alighted, excess and mark of berth 0 after an ABOARD_ADJUST. -/
def adjusted (s : State) (delta : Int) : Option (Nat × Nat × Nat × Bool) :=
  (callAfter (execAboardAdjust .fits 0 2203 delta s)).map fun k =>
    (k.declared, k.alighted, k.excess, k.overCapacity)

/-- Table 2-2, lines 1, 2 and 5. -/
theorem test_adjust :
    adjusted (aboardWith 12 3 14) (-10) = some (2, 5, 9, false) ∧
    adjusted (aboardWith 2 3 5) (-999) = some (0, 3, 2, false) ∧
    adjusted (aboardWith 995 0 0) 10 = some (999, 0, 0, true) := by decide

/-- The arbiter's ranking of Table 5-2, steps 7, 9, 11 and 13: level first, then age. -/
theorem test_ranking :
    bestOf [⟨.channel .c0, 4, false, 100⟩, ⟨.desk 7, 1, false, 50⟩] = some ⟨.channel .c0, 4, false, 100⟩ ∧
    bestOf [⟨.channel .c2, 6, false, 650⟩, ⟨.desk 7, 1, false, 50⟩] = some ⟨.channel .c2, 6, false, 650⟩ ∧
    bestOf [⟨.channel .c1, 4, false, 350⟩, ⟨.desk 7, 1, true, 50⟩] = some ⟨.desk 7, 1, true, 50⟩ ∧
    bestOf [⟨.channel .c0, 4, false, 1300⟩, ⟨.channel .c1, 4, true, 350⟩] =
      some ⟨.channel .c1, 4, true, 350⟩ := by decide

/-- The part's own image of default settings is valid (R184). -/
theorem default_image : loadImage (imageOf .default) = some .default := by
  have h : Settings.default.putFrom 1 Settings.default.values = some .default := by decide
  simp only [loadImage, imageOf, h]
  rfl

/-- A start-up of power-on with quiet lines leaves the state right after reset as it is. -/
theorem test_reset_is_a_start_up :
    execPowerOn ⟨.same false, .same false, .same true, false, 0, imageOf .default⟩ State.reset =
      .next State.reset := by
  have h : State.reset.settings.restarted
      ⟨.same false, .same false, .same true, false, 0, imageOf .default⟩ = State.reset.settings := by
    simp [SettingsStore.restarted, State.reset, default_image]
  simp only [execPowerOn, State.startUp, State.cleared, h]
  rfl

/-- The body of a CALL_QUERY reply is 73 octets (Table 11-7). -/
theorem test_call_reply_length : (callReplyBody ⟨.b0, .zeroed, 0, 0, 0⟩).length = 73 := by decide

/-- A start-up by command waits for the reply to the RESTART (R178). -/
theorem test_start_up_waits_for_the_reply (f : Found) (reply : Reply) :
    execCommandStartUp f { State.reset with
      bus := { State.reset.bus with restartAwaited := true, reply := some reply } } =
      .next { State.reset with
        bus := { State.reset.bus with restartAwaited := true, reply := some reply } } := rfl

/-- The load timer restarted by a segment does not run out (R143). -/
theorem test_load_timer_restarted (l : Load) (h : 0 < l.idle) :
    execLoadInactivityExpiry { State.reset with tables := { Tables.atStart with load := some l } } =
      .next { State.reset with tables := { Tables.atStart with load := some l } } := by
  have : l.idle ≠ 0 := Nat.pos_iff_ne_zero.mp h
  simp [execLoadInactivityExpiry, State.whenRunning, State.loadRunsOut, State.reset, this]

/-- A token found in the take keeps the block size of the take (R161). -/
theorem test_block_of_the_take :
    Snapshot.applied ⟨none, none, [], none, [⟨9, 0, 10, 10, 0, 0, 4, none⟩]⟩ ⟨9, 3, 12, 9, 2, 1, 6, none⟩ =
      ⟨9, 0, 12, 9, 2, 1, 4, none⟩ := by decide

/-- No word of the opcode table spells a command, since it gives no bits. -/
theorem test_no_words : decodeTableWord 8 0 = none := rfl

/-! ### States for the witnesses -/

/-- A stored-value card with nothing boarded before. -/
def card : Card := ⟨77, 1, false, some ⟨500, 0, 0⟩, none, none, none⟩

/-- Call 2203 BOARDING at berth 0 with 46 aboard, tables and clock set, and channel 0's reader UP. -/
def quay : State :=
  { aboardWith 40 6 0 with
    uptime := 100000
    clock := taken
    tables := { Tables.atStart with
      product := some ⟨12, [⟨1, .storedValue, 2, .all⟩, ⟨2, .staff, 0, .all⟩, ⟨3, .account, 2, .all⟩]⟩
      active := some tariff }
    ports := State.reset.ports.set .c0 { Port.atStart with line := .up, inactivity := some 3000 }
    channels := ⟨
      { Channel.atReset with state := .admitting, unlockOut := true, modeShown := some .opened },
      { Channel.atReset with unlockOut := true }, .atReset, .atReset⟩ }

/-- A live claim of one seat on channel 0. -/
def liveClaim : Claim := ⟨.b0, .paid, 1, 0, some 77, 190, none, some 540, 90, 5000⟩

/-- A provisional claim of two seats of an allotment on channel 0. -/
def waitingClaim : Claim := ⟨.b0, .allotment, 2, 0, some 9, 0, some 9, some 541, 99, 0⟩

/-- The quay with both claims, their allotment, the write awaited, and a card of channel 1 in the engine. -/
def crowd : State :=
  { quay with
    claims := quay.claims.set .c0 ⟨[liveClaim], [waitingClaim]⟩
    tables := { quay.tables with allot := [⟨9, 0, 10, 8, 2, 0, 4, none⟩] }
    channels := ⟨
      { Channel.atReset with
        state := .released, unlockIn := true, unlockOut := true, modeShown := some .opened },
      { Channel.atReset with state := .admitting, unlockOut := true, modeShown := some .opened },
      .atReset, .atReset⟩
    ports := ⟨
      { Port.atStart with line := .up, inactivity := some 3000, awaited := some ⟨541, 700⟩ },
      { Port.atStart with line := .up, inactivity := some 3000, outstanding := some card },
      .atStart, .atStart⟩
    engine := { Engine.atStart with
      work := some ⟨.channel .c1, card, quay.snapshot, false, .none⟩
      nextTag := 542
      notes := Engine.atStart.notes.set .c0 (some ⟨541, .none⟩) } }

/-- The quay with channel 0's card in the engine. -/
def working (k : Card) : State :=
  { quay with
    ports := quay.ports.set .c0 { quay.port .c0 with outstanding := some k }
    engine := { quay.engine with work := some ⟨.channel .c0, k, quay.snapshot, false, .none⟩ } }

/-- The quay with channel 0's account card referred in a slot. -/
def referred (i : Slot) : State :=
  { quay with ports := quay.ports.set .c0 { quay.port .c0 with outstanding := some { card with product := 3 } } }.setSlot
    i (some ⟨7, .c0, .b0, { card with product := 3 }, .account 190 475, 1, true, 0⟩)

/-- The quay with a load open. -/
def loading (l : Load) : State := { quay with tables := { quay.tables with load := some l } }

/-- A product load of one entry, with that entry taken. -/
def productLoad : Load :=
  ⟨.product, 13, 1, crc16 [1], 1, [⟨[1], .product 1 (some .staff) 0 .all⟩], none, 30000⟩

/-! ### A state that meets the hypotheses of each statement -/

theorem witness_CommandsKeepQueue : exec .clockSecond State.reset = .next State.reset := rfl

theorem witness_IdleStepIsOneMillisecond :
    (State.reset.pending = [] ∧ State.reset.power = .running) ∧
    State.reset.goInactive.pending = [] ∧ State.reset.goInactive.power = .inactive ∧
    (quay.timersOf .b0).dwell ≠ some 0 ∧ quay.reportTimer ≠ some 0 ∧
    (crowd.port .c0).awaited.map AwaitedWrite.left ≠ some 0 := by decide

theorem witness_InactivePartTakesNothing :
    State.reset.goInactive.power = .inactive ∧ (∀ f, Instr.alive .c0 ≠ .powerOn f) ∧
      ∀ f, Instr.alive .c0 ≠ .supplyRecovered f := by
  refine ⟨rfl, ?_, ?_⟩ <;> intro f h <;> cases h

theorem crowd_counts : Safety.CountsBounded crowd := by
  constructor
  · intro b; cases b <;> decide
  · intro c; cases c <;> decide

theorem witness_RecordsStayInRange :
    step crowd = .next crowd.tick ∧ Safety.CountsBounded crowd ∧ Safety.QueuesBounded crowd ∧ Safety.CountersRun crowd ∧
      Safety.SettingsInRange crowd ∧ Safety.StoresCounted crowd ∧ Safety.ClockInRange crowd := by
  refine ⟨rfl, crowd_counts, ⟨by decide, by decide⟩, ⟨by decide, by decide, by decide⟩, ?_, Nat.zero_le _, ?_⟩
  · refine ⟨by decide, by decide, ?_, ?_, by decide, by decide, by decide, by decide, by decide, by decide,
      by decide, by decide, by decide, by decide⟩ <;> intro c <;> cases c <;> decide
  · intro t h
    cases h
    decide

theorem witness_ClaimsStaySound :
    step crowd = .next crowd.tick ∧ Safety.ClaimsLimited crowd ∧ Safety.ClaimsUnpassed crowd ∧
      Safety.ClaimsOnBoarding crowd := by
  refine ⟨rfl, ?_, ⟨?_, by decide, ?_, ?_⟩, ?_⟩
  · intro c; cases c <;> decide
  · intro c; cases c <;> decide
  · intro w h; cases h; decide
  · intro i r h; cases i <;> cases h
  · intro c; cases c <;> decide

theorem witness_CallsStaySound :
    step crowd = .next crowd.tick ∧ Safety.CountsBounded crowd ∧ Safety.EgressEndsCalls crowd ∧
      Safety.AboardCounted crowd ∧ Safety.TimersFollowCalls crowd ∧ Safety.VacantZeroed crowd := by
  refine ⟨rfl, crowd_counts, fun h => absurd h (by decide), ?_, ?_, ?_⟩ <;> intro b <;> cases b <;> decide

/-- Every count at its saturation. -/
theorem witness_CallsStaySound_saturated : Safety.CountsBounded (aboardWith 0 65535 65535) ∧
    Safety.AboardCounted (aboardWith 0 65535 65535) := by
  refine ⟨⟨?_, ?_⟩, ?_⟩
  · intro b; cases b <;> decide
  · intro c; cases c <;> decide
  · intro b; cases b <;> decide

theorem witness_OverCapacityStaysMarked : Safety.ClaimsOnBoarding crowd ∧ Safety.ClaimsUnpassed crowd ∧
    Safety.CountsBounded crowd ∧ Safety.OverCapacityMarked crowd ∧ step crowd = .next crowd.tick := by
  refine ⟨witness_ClaimsStaySound.2.2.2, witness_ClaimsStaySound.2.2.1, crowd_counts, ?_, rfl⟩
  intro b
  cases b <;> decide

theorem witness_ChannelsStayDerived : Safety.ChannelsDerived crowd := by
  intro _ c
  cases c <;> decide

theorem witness_FreeEngineStaysIdle :
    step quay = .next quay.tick ∧ Safety.ClaimsOnBoarding quay ∧ Safety.FreeEngineIdle quay := by
  refine ⟨rfl, ?_, fun _ => rfl⟩
  intro c
  cases c <;> decide

/-- The crowd with channel 1's work withdrawn, cards pending on channels 0 and 1, and channel 1 the higher level. -/
def competing : State :=
  { crowd with
    claims := .same .none
    ports := ⟨
      { Port.atStart with line := .up, inactivity := some 3000, outstanding := some card },
      { Port.atStart with line := .up, inactivity := some 3000, outstanding := some { card with id := 78 } },
      .atStart, .atStart⟩
    arbiter := { crowd.arbiter with
      places := ⟨some ⟨card, 99000⟩, some ⟨{ card with id := 78 }, 99900⟩, none, none⟩ }
    settings := { crowd.settings with working := { crowd.cfg with level := ⟨4, 5, 4, 4⟩ } }
    engine := { crowd.engine with work := some ⟨.channel .c1, card, quay.snapshot, true, .none⟩ } }

/-- The engine of a next state holds a channel's card. -/
def takes (o : Result) (c : Chan) (k : Card) : Prop :=
  ∃ t w, o = .next t ∧ t.engine.work = some w ∧ w.withdrawn = false ∧ w.mark = .none ∧
    w.requester = .channel c ∧ w.card = k

theorem witness_FreeEngineStaysIdle_taken : competing.power = .running ∧ Safety.HeldOnce competing ∧
    takes (exec .validationCompletion competing) .c1 { card with id := 78 } := by
  refine ⟨rfl, ?_, ⟨_, _, rfl, rfl, rfl, rfl, rfl, rfl⟩⟩
  intro c
  cases c <;> decide

theorem witness_PortsStaySound : Safety.PortsSound crowd := by
  intro c
  cases c <;> decide

theorem witness_PresentationsStayHeldOnce : Safety.HeldOnce crowd := by
  intro c
  cases c <;> decide

theorem witness_AllotmentsStayBalanced : Safety.AllotmentsBalanced crowd := by
  refine ⟨by decide, by decide, by decide, ?_⟩
  intro k hk token ht
  have all : crowd.allClaims = [liveClaim, waitingClaim] := rfl
  rw [all] at hk
  rcases List.mem_cons.mp hk with rfl | hk
  · cases ht
  · cases List.mem_singleton.mp hk
    cases ht
    exact ⟨_, List.mem_singleton.mpr rfl, rfl⟩

theorem witness_FramesAreReceived :
    ((255 : Nat) < 256 ∧ (250 : Nat) ≤ 250 ∧ (long 250).length = 250) ∧
    ((0x61 : Nat) < 256 ∧ (0 : Nat) < 65536 ∧ ([] : List Octet).length ≤ 250 ∧
      0 ≠ (crc16 (octetsOf 1 0x61 ++ octetsOf 1 0 ++ [])).toNat ∧
      0 ≠ (crc16 (octetsOf 1 255 ++ octetsOf 1 0x61 ++ octetsOf 1 0 ++ [])).toNat) ∧
    (250 : Nat) < 251 ∧ (255 : Nat) < 256 := by
  refine ⟨⟨by decide, by decide, long_length _⟩, by decide +kernel, by decide, by decide⟩

/-- A card with every part, its figures at the ends of their octets. -/
def fullCard : Card :=
  ⟨1, 255, true, some ⟨-2147483648, 65535, 65535⟩, some 255, some 65535,
    some ⟨65535, 4294967295, 255, 65535, 65535, 65535⟩⟩

theorem witness_CardRoundTrip : fullCard.product < 256 ∧
    (∀ v, fullCard.value = some v →
      -2147483648 ≤ v.balance ∧ v.balance < 2147483648 ∧ v.daily < 65536 ∧ v.day < 65536) ∧
    (∀ n, fullCard.rides = some n → n < 256) ∧ (∀ n, fullCard.passEnd = some n → n < 65536) ∧
    (∀ l, fullCard.last = some l →
      l.day < 65536 ∧ l.secs < 4294967296 ∧ l.line < 256 ∧ l.pier < 65536 ∧ l.fare < 65536 ∧
        l.tag < 65536) := by
  refine ⟨by decide, ?_, ?_, ?_, ?_⟩ <;> intro x h <;> cases h <;> decide

theorem witness_SettingsImageRoundTrip :
    Settings.InRange { Settings.default with busAddress := 8, pierNumber := 999, countReportPeriod := 5 } := by
  refine ⟨by decide, by decide, ?_, ?_, by decide, by decide, by decide, by decide, by decide, by decide,
    by decide, by decide, by decide, by decide⟩ <;> intro c <;> cases c <;> decide

/-- The reset state with a RESTART accepted. -/
def restarting : State := { State.reset with bus := { State.reset.bus with restartAwaited := true } }

theorem witness_StartUpStartsAfresh :
    State.reset.goInactive.power = .inactive ∧ restarting.power = .running ∧
      restarting.bus.restartAwaited = true ∧ restarting.bus.reply = none ∧
      restarting.settings.storing = none ∧ State.reset.bus.restartAwaited = false ∧
      { restarting.bus with reply := some ⟨1, 0x84, .ok, .empty⟩ }.reply ≠ none := by decide

theorem witness_SupplyDipGoesDark : crowd.power = .running := rfl

theorem witness_QueriesChangeNothing : crowd.power = .running ∧ (1 : CardId) ≠ 0 ∧ (1 : Nat) ≤ 1 ∧
    (255 : Nat) ≤ 255 ∧ (15 : Nat) ≤ 15 ∧ crowd.cfg.value? 1 = some (.num 1) ∧
    crowd.cfg.value? 31 = some (.num 2) ∧ 3 < 4 ∧ 255 < 256 ∧ 15 < 16 ∧ 31 < 32 := by decide

/-- The quay's call in another state. -/
def callIn (st : CallState) : State :=
  { quay with calls := quay.calls.set .b0 { quay.call .b0 with state := st }, callTimers := .same .stopped }

theorem witness_CallQueryReportsTheRecord : quay.power = .running ∧ 1 < 2 ∧ Berth.b1.num = 1 ∧
    (quay.call .b1).state = .vacant ∧ quay.call .b1 = .zeroed ∧ ((callIn .ended).call .b0).state = .ended ∧
    ((callIn .ended).call .b0).vessel ≠ 0 := by decide

theorem witness_PollTakesTheOldest : (referred .s1).power = .running ∧
    (referred .s1).engine.slot1Older = false ∧ (referred .s1).notices.queue ≠ [] := by decide

/-- The quay with a settings store running. -/
def storing : State := { quay with settings := { quay.settings with storing := some ⟨[], 0⟩ } }

/-- The quay with a reply waiting. -/
def replying : State := { quay with bus := { quay.bus with reply := some ⟨1, 0x81, .ok, .empty⟩ } }

theorem witness_BusPortTakesFrames : quay.power = .running ∧ quay.settings.storing = none ∧
    storing.power = .running ∧ storing.settings.storing ≠ none ∧ replying.power = .running ∧
    replying.bus.reply = some ⟨1, 0x81, .ok, .empty⟩ := by decide

/-- The quay with a tariff pending from an effective time. -/
def tariffPending (day secs : Nat) : State :=
  { quay with tables := { quay.tables with pendingTariff := some { tariff with effective := ⟨day, secs⟩ } } }

theorem witness_ClockMoves :
    quay.power = .running ∧ 86399 ≤ 86399 ∧ quay.tables.pendingTariff = none ∧
    (tariffPending 9302 0).power = .running ∧
    (tariffPending 9302 0).tables.pendingTariff = some { tariff with effective := ⟨9302, 0⟩ } ∧
    (9301 < 9302 ∨ 9301 = 9302 ∧ 86399 < 0) ∧ ¬(9302 < 9302 ∨ 9302 = 9302 ∧ 0 < 0) ∧
    (tariffPending 9301 29401).clock = some ⟨9301, 29400⟩ ∧ 86399 < 86400 ∧ State.reset.power = .running ∧
    State.reset.clock = none := by decide

theorem witness_StateMessagesAreTested : quay.power = .running ∧ 1 < 2 ∧ Berth.b0.num = 0 ∧ 2203 ≠ 0 ∧
    (quay.call .b0).vessel = 2203 ∧ decide ((quay.call .b0).state = .boarding) = true ∧
    decide ((quay.call .b0).state = .alongside) = false ∧ (quay.call .b0).vessel ≠ 65535 := by decide

theorem witness_CallOpenEntersAlongside : quay.power = .running ∧ quay.egress.active = false ∧
    (quay.call .b1).state = .vacant ∧ Berth.b1.num = 1 ∧ 1 ≤ 65535 ∧ 65535 ≤ 65535 ∧ 1 ≤ 63 ∧ 63 ≤ 63 ∧
    1 ≤ 999 ∧ 999 ≤ 999 ∧ 30 ≤ 900 ∧ 900 ≤ 900 ∧ (1 < 2 ∧ 0 < 1 ∧ 65535 < 65536 ∧ 63 < 64 ∧ 999 < 1000 ∧
      29 < 30 ∧ 900 < 901) ∧ (quay.call .b0).state ≠ .vacant ∧ (1 : Nat) < 999 := by decide

theorem witness_BoardStartEntersBoarding : (callIn .alongside).power = .running ∧
    ((callIn .alongside).call .b0).state = .alongside ∧ ((callIn .alongside).call .b0).vessel ≠ 0 := by decide

/-- The quay with the dwell timer at the end of its period. -/
def dwelt : State := { quay with callTimers := .same ⟨some 0, none⟩ }

theorem witness_LastCallIsEntered : quay.power = .running ∧ (quay.call .b0).state = .boarding ∧
    (quay.call .b0).vessel ≠ 0 ∧ dwelt.power = .running ∧ (dwelt.call .b0).state = .boarding ∧
    (dwelt.timersOf .b0).dwell = some 0 ∧ quay.berthOf .c0 = some .b0 ∧ (2 : Nat) ≤ 3 := by decide

/-- The quay's call in LAST_CALL. -/
def lastCalling : State := { callIn .lastCall with callTimers := .same ⟨none, some 0⟩ }

theorem witness_CallsEnd : crowd.power = .running ∧ (crowd.call .b0).vessel ≠ 0 ∧
    (crowd.call .b0).state.isOpen = true ∧ lastCalling.power = .running ∧
    (lastCalling.timersOf .b0).lastCall = some 0 ∧ (lastCalling.call .b0).state = .lastCall := by decide

/-- The quay with its call ENDED and channel 0 CLOSED. -/
def collectable : State :=
  { callIn .ended with
    channels := ⟨{ Channel.atReset with state := .closed, modeShown := some .closed }, .atReset, .atReset,
      .atReset⟩ }

theorem witness_CallCollectZeroesTheRecord : collectable.power = .running ∧
    (collectable.call .b0).state = .ended ∧ (collectable.call .b0).vessel ≠ 0 ∧
    collectable.berthOf .c0 = some .b0 ∧ (collectable.chan .c0).state = .closed ∧
    (quay.call .b0).state ≠ .ended ∧ (quay.call .b0).vessel ≠ 0 := by decide

theorem witness_CallCollectZeroesTheRecord_derived : Safety.ChannelsDerived collectable := by
  intro _ c
  cases c <;> decide

theorem witness_AboardAdjustAdjusts : crowd.power = .running ∧ (crowd.call .b0).state.isOpen = true ∧
    (crowd.call .b0).vessel ≠ 0 ∧ (-999 : Int) ≤ -999 ∧ (999 : Int) ≤ 999 ∧ (999 : Int) < 1000 ∧
    (-1000 : Int) < -999 ∧ 1 < 2 ∧ (crowd.call .b1).state.isOpen = false ∧
    (crowd.call .b0).vessel ≠ 65535 := by decide

/-- The quay with the report timer running, under a period. -/
def reporting (period : Nat) : State :=
  { quay with
    reportTimer := some 0
    settings := { quay.settings with working := { quay.cfg with countReportPeriod := period } } }

/-- The quay with channel 0's tracker off CLEAR. -/
def spanned (k : Tracker) : State :=
  { crowd with channels := crowd.channels.set .c0 { crowd.chan .c0 with
      tracker := k, beamA := k = .leavingOut, beamB := k = .leavingIn, obstructionTimer := some 0 } }

theorem witness_TimersThatReport : (reporting 0).power = .running ∧ (reporting 0).reportTimer = some 0 ∧
    (reporting 0).cfg.countReportPeriod = 0 ∧ 0 < (reporting 5).cfg.countReportPeriod ∧
    ((reporting 5).call .b0).state.isOpen = true ∧ (spanned .outer).power = .running ∧
    ((spanned .outer).chan .c0).obstructionTimer = some 0 := by decide

/-- Both calls open, with the report timer running. -/
def bothOpen : State := { reporting 5 with calls := .same (quay.call .b0) }

theorem witness_TimersThatReport_both : bothOpen.power = .running ∧ bothOpen.reportTimer = some 0 ∧
    0 < bothOpen.cfg.countReportPeriod ∧ (bothOpen.call .b0).state.isOpen = true ∧
    (bothOpen.call .b1).state.isOpen = true ∧ bothOpen.notices.queue.length + 1 < 32 := by decide

/-- A notice queued while 32 are queued is discarded, takes no number, and sets the dropped mark (R175). -/
theorem test_full_queue (ns : List (Nat × Notice)) (h : ns.length = 32) :
    ({ State.reset with notices := ⟨ns, false, 9⟩ }.queue (.storeDone true 1)).notices = ⟨ns, true, 9⟩ := by
  simp [State.queue, Config.noticeQueueSize, h]

theorem witness_ChannelServiceSetsTheFlag : crowd.power = .running ∧ 3 < 4 ∧
    (crowd.chan .c0).service ≠ .outOfService ∧ (crowd.chan .c0).service = .inService := by decide

theorem witness_ChannelReleaseGrantsAStaffSeat : crowd.power = .running ∧ 3 < 4 ∧
    crowd.egress.active = false ∧ crowd.berthOf .c0 = some .b0 ∧
    (crowd.call .b0).state.isBoarding = true ∧ (crowd.chan .c0).state ≠ .suspended ∧
    (crowd.chan .c0).state ≠ .egressHeld ∧ (crowd.claimsOf .c0).count < 3 ∧ 0 < crowd.headroom .b0 := by decide

/-- A claim of every seat that the quay's call has left. -/
def wholeBoat : State := { quay with claims := quay.claims.set .c0 ⟨[{ liveClaim with granted := 4 }], []⟩ }

/-- The quay with three claims on channel 0. -/
def threeClaims : State :=
  { working card with
    claims := quay.claims.set .c0 ⟨[{ liveClaim with kind := .free }, liveClaim, liveClaim], []⟩ }

/-- The reset state in egress, with the hold running. -/
def evacuating : State := State.settle State.reset (State.reset.enterEgress .line) []

/-- The reset state with the latch of channel 0 set. -/
def latched : State :=
  { State.reset with
    egress := { State.reset.egress with latch := State.reset.egress.latch.set .c0 (some .opened) } }

theorem witness_ChannelReleaseGrantsAStaffSeat_refused : evacuating.egress.active = true ∧
    (State.reset.call .b0).state.isBoarding = false ∧ (quay.claimsOf .c0).count = 0 ∧
    3 ≤ (threeClaims.claimsOf .c0).count ∧ wholeBoat.power = .running ∧ wholeBoat.egress.active = false ∧
    wholeBoat.berthOf .c0 = some .b0 ∧ (wholeBoat.call .b0).state.isBoarding = true ∧
    (wholeBoat.chan .c0).state = .admitting ∧ (wholeBoat.claimsOf .c0).count < 3 ∧
    wholeBoat.headroom .b0 = 0 := by decide

theorem witness_ChannelRestoreReleasesLatches : evacuating.power = .running ∧ evacuating.egress.active = true ∧
    latched.power = .running ∧ latched.egress.active = false ∧ latched.egress.latch.get .c0 = some .opened ∧
    3 < 4 := by decide

theorem witness_RampLinesSuspend : crowd.power = .running ∧ crowd.egress.active = false ∧
    crowd.egress.latch.get .c0 = none ∧ crowd.berthOf .c0 = some .b0 ∧
    (crowd.call .b0).state.isOpen = true ∧ (crowd.chan .c0).state ≠ .suspended := by decide

/-- The crowd with channel 0 SUSPENDED. -/
def suspended : State :=
  { crowd with channels := crowd.channels.set .c0 { crowd.chan .c0 with
      state := .suspended, rampSafe := false, suspensionTimer := some 0 } }

theorem witness_SuspensionLimitEndsClaims : suspended.power = .running ∧
    (suspended.chan .c0).state = .suspended ∧ (suspended.chan .c0).suspensionTimer = some 0 ∧
    (suspended.claimsOf .c0).live = [liveClaim] ∧ (suspended.claimsOf .c0).provisional = [waitingClaim] ∧
    suspended.berthOf .c0 = some .b0 := by
  decide

theorem witness_SuspensionLimitEndsClaims_boarding : Safety.ClaimsOnBoarding suspended := by
  intro c
  cases c <;> decide

/-- Table 3-5. -/
def beamRows : List (Tracker × Beam × Bool × Tracker × Option Direction) :=
  [(.clear, .shore, true, .outer, none), (.clear, .vessel, true, .inner, none),
   (.outer, .shore, false, .clear, none), (.outer, .vessel, true, .spannedIn, none),
   (.inner, .shore, true, .spannedOut, none), (.inner, .vessel, false, .clear, none),
   (.spannedIn, .shore, false, .leavingIn, none), (.spannedIn, .vessel, false, .outer, none),
   (.spannedOut, .shore, false, .inner, none), (.spannedOut, .vessel, false, .leavingOut, none),
   (.leavingIn, .shore, true, .spannedIn, none), (.leavingIn, .vessel, false, .clear, some .inward),
   (.leavingOut, .shore, false, .clear, some .outward), (.leavingOut, .vessel, true, .spannedOut, none)]

theorem witness_BeamsMoveTheTracker : crowd.power = .running ∧
    (∀ row ∈ beamRows, ¬(row.1 = (crowd.chan .c0).tracker ∧ row.2.1 = .shore ∧ row.2.2.1 = false)) ∧
    ((crowd.chan .c0).tracker, Beam.shore, true, Tracker.outer, none) ∈ beamRows ∧
    (((spanned .leavingOut).chan .c0).tracker, Beam.shore, false, Tracker.clear, some Direction.outward) ∈
      beamRows := by decide

/-- The six states and two directions of the statement's rows, each the tracker's own move. -/
theorem test_beam_rows : ∀ row ∈ beamRows, row.1.move row.2.1 row.2.2.1 = some row.2.2.2 := by decide

theorem witness_PassagesAreCounted : (spanned .leavingOut).power = .running ∧
    ((spanned .leavingOut).chan .c0).state ≠ .egressHeld ∧ (spanned .leavingOut).berthOf .c0 = some .b0 ∧
    ((spanned .leavingOut).call .b0).state.isOpen = true ∧
    ((spanned .leavingOut).chan .c0).tracker = .leavingOut ∧
    ((spanned .leavingIn).chan .c0).tracker = .leavingIn ∧
    ((spanned .leavingIn).claimsOf .c0).live = [liveClaim] ∧ liveClaim.berth = .b0 ∧
    ({ spanned .leavingIn with claims := .same .none }.claimsOf .c0).live = [] := by decide

/-- The journey entry of the live claim. -/
def liveEntry : JourneyEntry := ⟨77, 90000, .b0, 7, .admitted, 190, .fare, 540⟩

/-- The reset state with channel 0's tracker off CLEAR. -/
def strayed : State :=
  { State.reset with channels := State.reset.channels.set .c0 { Channel.atReset with tracker := .leavingIn } }

theorem witness_PassagesAreCounted_journey : liveClaim.IsEntry liveEntry ∧
    liveClaim.granted ≤ liveClaim.passed + 1 ∧ waitingClaim.passed + 1 < waitingClaim.granted :=
  ⟨⟨rfl, fun _ h => by cases h; rfl, fun h => absurd h (by decide)⟩, by decide, by decide⟩

theorem witness_PassagesAreCounted_elsewhere : strayed.power = .running ∧
    (strayed.chan .c0).tracker = .leavingIn ∧ strayed.berthOf .c0 = some .b0 ∧
    (strayed.call .b0).state.isOpen = false ∧ (evacuating.chan .c0).state = .egressHeld := by decide

/-- The crowd with the pass window of channel 0's head at its end, and the journey entry of the head. -/
def lapsing : State :=
  { crowd with
    claims := crowd.claims.set .c0 ⟨[{ liveClaim with window := 0 }], [waitingClaim]⟩
    engine := { crowd.engine with journey := [liveEntry] } }

theorem witness_PassWindowLapsesTheHead : lapsing.power = .running ∧ (lapsing.chan .c0).state ≠ .suspended ∧
    (lapsing.claimsOf .c0).live = [{ liveClaim with window := 0 }] ∧ lapsing.engine.journey = [] ++ liveEntry :: [] := by
  decide

theorem witness_EgressIsEntered : crowd.power = .running ∧ crowd.egress.active = false ∧
    crowd.berthOf .c1 = some .b0 ∧ (crowd.call .b0).state.isOpen = true ∧
    crowd.engine.work.map Work.requester = some (.channel .c1) := by decide

/-- Egress with the hold run out and the line inactive. -/
def heldOut : State :=
  { evacuating with egress := { evacuating.egress with hold := none, level := false } }

/-- Egress with a clear pending. -/
def clearing : State :=
  { evacuating with egress := { evacuating.egress with hold := some 0, pendingClear := true } }

theorem witness_EgressIsLeft : clearing.power = .running ∧ clearing.egress.active = true ∧
    clearing.egress.hold = some 0 ∧ clearing.egress.pendingClear = true ∧ heldOut.power = .running ∧
    heldOut.egress.active = true ∧ heldOut.egress.level = false ∧ heldOut.egress.hold = none := by decide

theorem witness_EgressControllerMoves : evacuating.power = .running ∧ evacuating.egress.active = true ∧
    evacuating.egress.level = false ∧ evacuating.egress.hold = some 30000 ∧
    crowd.egress.active = false ∧ { clearing.egress with pendingClear := false }.hold = some 0 := by decide

theorem witness_LoadsOpenAndClose : quay.power = .running ∧ 13 ≠ 0 ∧ (1 ≤ 48 ∧ 48 ≤ 48) ∧ (72 ≤ 76 ∧ 76 ≤ 76) ∧
    (4096 : Nat) ≤ 4096 ∧ quay.tables.load = none ∧ (loading productLoad).tables.load = some productLoad ∧
    productLoad.kind = .product ∧ productLoad.version = 13 ∧ productLoad.version ≠ 14 ∧ 0 < productLoad.idle ∧
    { productLoad with idle := 0 }.idle = 0 ∧ 48 < 49 ∧ 71 < 72 ∧ 76 < 77 ∧ 4096 < 4097 := by decide

/-- A deny entry as a segment carries it. -/
def denyEntry (id : CardId) : LoadEntry := ⟨[1], .deny id (some .lost) (some .refuse)⟩

/-- A deny load of two entries, with none taken. -/
def denyLoad : Load := ⟨.deny, 5, 2, 0, 0, [], none, 100⟩

theorem witness_SegmentsAreTaken : (loading denyLoad).power = .running ∧ quay.tables.load = none ∧
    (loading denyLoad).tables.load = some denyLoad ∧ 0 < productLoad.next ∧ 1 + 1 ≠ denyLoad.next ∧
    denyLoad.count ≤ 16 * 1 ∧ 16 * denyLoad.next < denyLoad.count ∧
    [denyEntry 1, denyEntry 2].length = min 16 (denyLoad.count - 16 * denyLoad.next) ∧
    (∀ e ∈ [denyEntry 1, denyEntry 2], entryOfKind denyLoad.kind e.content = true) ∧ denyLoad.broken = none ∧
    entryOk 0 none (denyEntry 1).content = true ∧
    entryOk 1 (some (denyEntry 1).content) (denyEntry 2).content = true ∧
    entryOk 1 (some (denyEntry 1).content) (denyEntry 1).content = false ∧
    { denyLoad with broken := some 3 }.broken = some 3 ∧
    [denyEntry 1].length ≠ min 16 (denyLoad.count - 16 * denyLoad.next) ∧
    entryOfKind denyLoad.kind (.product 1 none 0 .all) = false := by decide

/-- A tariff load, whole and unbroken, from an effective time. -/
def tariffLoad (day secs : Nat) : Load :=
  ⟨.tariff, 14, 1, crc16 [1], 1, [⟨[1], .general ⟨day, secs⟩ 5 0 0 0⟩], none, 100⟩

theorem witness_LoadCommitReplacesTheTable : (loading productLoad).power = .running ∧
    quay.power = .running ∧ quay.tables.load = none ∧
    productLoad.entries.length = productLoad.count ∧ productLoad.broken = none ∧
    crc16 (productLoad.entries.flatMap LoadEntry.octets) = productLoad.crc ∧
    denyLoad.entries.length ≠ denyLoad.count ∧ { productLoad with broken := some 0 }.broken ≠ none ∧
    crc16 (productLoad.entries.flatMap LoadEntry.octets) ≠ productLoad.crc + 1 ∧
    { denyLoad with count := 0 }.entries.length = 0 ∧ crc16 [] = 0xFFFF#16 ∧
    (tariffOf 14 (tariffLoad 0 0).entries).effective = ⟨0, 0⟩ ∧ quay.clock = some ⟨9301, 29400⟩ ∧
    (tariffOf 14 (tariffLoad 9301 29400).entries).effective = ⟨9301, 29400⟩ ∧
    (tariffOf 14 (tariffLoad 9301 29401).entries).effective ≠ ⟨0, 0⟩ := by decide +kernel

/-- The quay with a full deny list. -/
def denyFull : State :=
  { quay with tables := { quay.tables with deny := ⟨1, List.replicate 4096 ⟨5, .lost, .refuse⟩, 0⟩ } }

theorem witness_DenyEditEditsTheList : quay.power = .running ∧
    (∀ i ∈ [DenyItem.mk 6 (some .lost) (some .block)], i.id ≠ 0) ∧
    (∀ i ∈ [DenyItem.mk 6 (some .lost) (some .block)], i.reason ≠ none ∧ i.action ≠ none) ∧
    quay.tables.deny.entries.length + 1 ≤ 4096 ∧ denyFull.power = .running ∧
    4096 ≤ denyFull.tables.deny.entries.length ∧ ∀ e ∈ denyFull.tables.deny.entries, e.id ≠ 6 := by
  refine ⟨rfl, by decide, by decide, by decide, rfl, List.length_replicate.ge, ?_⟩
  intro e he
  rw [List.eq_of_mem_replicate he]
  decide

/-- The quay with room for one more entry in its deny list. -/
def denyShort : State :=
  { quay with tables := { quay.tables with deny := ⟨1, List.replicate 4095 ⟨5, .lost, .refuse⟩, 0⟩ } }

/-- An ADD of two ids, the first of which takes the last place. -/
theorem witness_DenyEditEditsTheList_room : denyShort.power = .running ∧
    [DenyItem.mk 6 (some .lost) (some .block), ⟨7, some .lost, some .block⟩] =
      [⟨6, some .lost, some .block⟩] ++ ⟨7, some .lost, some .block⟩ :: [] ∧
    1 = (([DenyItem.mk 6 (some .lost) (some .block)].map DenyItem.id).dedup.filter fun x =>
      denyShort.tables.deny.entries.all fun e => e.id ≠ x).length ∧
    denyShort.tables.deny.entries.length + 1 = 4096 ∧
    (∀ x ∈ [DenyItem.mk 6 (some .lost) (some .block)], x.id ≠ 7) ∧
    ∀ e ∈ denyShort.tables.deny.entries, e.id ≠ 7 := by
  have all : ∀ e ∈ denyShort.tables.deny.entries, e.id = 5 := by
    intro e he
    rw [List.eq_of_mem_replicate he]
  have six : (denyShort.tables.deny.entries.all fun e => e.id ≠ (6 : CardId)) = true := by
    rw [List.all_eq_true]
    intro e he
    rw [all e he]
    decide
  refine ⟨rfl, rfl, ?_, congrArg (· + 1) List.length_replicate, by decide, ?_⟩
  · have one : ([6] : List CardId).dedup = [6] := by decide
    simp only [List.map_cons, List.map_nil, one, List.filter_cons, six, if_true, List.filter_nil,
      List.length_singleton]
  · intro e he
    rw [all e he]
    decide

/-- Messages that break a test of form. -/
theorem witness_DenyEditEditsTheList_malformed : ([] : List DenyItem).length = 0 ∧
    16 < (List.replicate 17 (DenyItem.mk 6 none none)).length ∧
    (∃ i ∈ [DenyItem.mk 0 none none], i.id = 0) ∧
    ∃ i ∈ [DenyItem.mk 6 (some .lost) none], i.reason = none ∨ i.action = none := by decide

theorem witness_AllotmentsAreSetAndRemoved : crowd.power = .running ∧ (8 : CardId) ≠ 0 ∧ 63 ≤ 63 ∧
    1 ≤ 9999 ∧ 9999 ≤ 9999 ∧ 1 ≤ 9 ∧ 9 ≤ 9 ∧ crowd.allotOf 8 = none ∧ crowd.tables.allot.length < 16 ∧
    crowd.allotOf 9 = some ⟨9, 0, 10, 8, 2, 0, 4, none⟩ ∧ 0 + 2 ≤ 2 ∧ 1 < 0 + 2 ∧ 0 < 2 ∧
    { crowd with tables := { crowd.tables with allot := [⟨9, 0, 10, 10, 0, 0, 4, none⟩] } }.allotOf 9 =
      some ⟨9, 0, 10, 10, 0, 0, 4, none⟩ ∧ crowd.slot .s0 = none ∧ crowd.slot .s1 = none ∧
    63 < 64 ∧ 9999 < 10000 ∧ 9 < 10 ∧ 65535 < 65536 ∧ 86399 < 86400 := by decide

theorem witness_FaresStayInBounds : (∀ f ∈ (dear 0 10000).base, f ≤ 2000) ∧
    (∀ k ∈ (dear 0 10000).bands, 100 ≤ k.multiplier ∧ k.multiplier ≤ 250) ∧
    (cardWith 4800 0 0 0 12 0).value = some ⟨4800, 0, 0⟩ := by decide

/-- The figures of the standard case (Table 7-3): P 475, F1 237, F2 235, K 150, F3 85. -/
theorem witness_FaresStayInBounds_stages : taken = some ⟨9301, 29400⟩ ∧
    tariff.bands = [] ++ ⟨420, 570, 125⟩ :: [] ∧ 420 ≤ 29400 / 60 ∧ 29400 / 60 < 570 ∧
    475 = (tariff.base.getD (7 - 1) 0 * 125 + 50) / 100 ∧
    237 = 475 - (475 * (tariff.classes.getD 2 ⟨0, 0⟩).discount + 50) / 100 ∧ 235 = 237 - 237 % tariff.unit ∧
    (cardWith 120 540 9301 28200 12 190).last = some ⟨9301, 28200, 12, 5, 190, 540⟩ ∧ 0 < tariff.window ∧
    28200 ≤ 29400 ∧ 29400 - 28200 ≤ tariff.window * 60 ∧ 12 ≠ 7 ∧ 150 = min 190 tariff.creditCap ∧
    85 = 235 - 150 ∧ 0 < (tariff.classes.getD 2 ⟨0, 0⟩).cap := by decide

theorem witness_SettingsAreSet : quay.power = .running ∧ quay.settings.storing = none ∧
    (quay.cfg.put 7 (.num 0)).isSome = true ∧ quay.cfg.value? 7 = some (.num 4) ∧
    (quay.cfg.put 7 (.num 8)).isNone = true ∧ (State.reset.cfg.put 3 .noBerth).isSome = true ∧
    (State.reset.call .b0).state = .vacant ∧ (State.reset.call .b1).state = .vacant ∧
    loadImage State.reset.settings.image = some .default ∧ storing.settings.storing ≠ none ∧
    (quay.call .b0).state ≠ .vacant ∧ (quay.cfg.put 2 (.num 5)).isSome = true ∧
    quay.cfg.berthOf.get .c0 = some .b0 := by
  refine ⟨rfl, rfl, by decide, by decide, by decide, by decide, by decide, by decide, default_image,
    by decide, by decide, by decide, by decide⟩

/-- The quay's call in LAST_CALL, with a card of channel 0 pending. -/
def pendingAtLastCall : State :=
  { callIn .lastCall with
    arbiter := { quay.arbiter with places := quay.arbiter.places.set .c0 (some ⟨card, 90000⟩) }
    ports := quay.ports.set .c0 { quay.port .c0 with outstanding := some card } }

/-- LAST_CALL_LEVEL raised to 4, and CHANNEL_LEVEL 0 lowered to 3, at a call in LAST_CALL; the new berth of
channel 2 alone is not VACANT. -/
theorem witness_SettingsAreSet_refused : pendingAtLastCall.power = .running ∧
    pendingAtLastCall.settings.storing = none ∧
    (pendingAtLastCall.cfg.put 19 (.num 4)).map Settings.lastCallLevel = some 4 ∧
    pendingAtLastCall.cfg.lastCallLevel = 3 ∧ pendingAtLastCall.cfg.level.get .c0 = 4 ∧
    (pendingAtLastCall.cfg.put 7 (.num 3)).map (fun k => k.level.get .c0) = some 3 ∧
    (pendingAtLastCall.call .b0).state = .lastCall ∧
    pendingAtLastCall.arbiter.places.get .c0 = some ⟨card, 90000⟩ ∧
    (quay.cfg.put (3 + Chan.c2.num) (.num 0)).map (fun k => k.berthOf.get .c2) = some (some .b0) ∧
    quay.cfg.berthOf.get .c2 = some .b1 ∧ (quay.call .b1).state = .vacant := by decide

theorem witness_SettingsAreStored : quay.power = .running ∧ quay.settings.storing = none ∧
    quay.bus.restartAwaited = false ∧ quay.settings.writeCount < 10000 ∧
    { quay.settings with writeCount := 10000 }.writeCount = 10000 ∧
    storing.settings.storing = some ⟨[], 0⟩ ∧ restarting.bus.restartAwaited = true := by decide

theorem witness_DeskChecksAreTaken : crowd.power = .running ∧ Card.parse [] = none ∧
    Card.parse card.octets = some card ∧ crowd.arbiter.deskOccupied = false ∧ crowd.egress.active = false ∧
    crowd.cfg.deskLevel ≠ 0 ∧ crowd.engine.work ≠ none ∧ quay.engine.work = none ∧
    quay.arbiter.places = .same none ∧ evacuating.egress.active = true ∧
    evacuating.arbiter.deskOccupied = false := by decide +kernel

theorem witness_CompletionWithoutSeats : (working { card with blocked := true }).power = .running ∧
    { card with blocked := true }.blocked = true ∧ { card with product := 0 }.dataOk = false ∧
    ((working card).port .c0).outstanding ≠ none ∧ ((working card).port .c0).sending = none := by decide

/-- The quay at work on a card passes it on to stage 8 with a product of its table. -/
theorem quay_reaches (k : Card) (p : ProductEntry) (hk : k.dataOk = true) (hb : k.blocked = false)
    (hp : [⟨1, .storedValue, 2, .all⟩, ⟨2, .staff, 0, .all⟩, ⟨3, .account, 2, .all⟩].find?
      (fun e : ProductEntry => e.number = k.product) = some p) (hl : p.lines = .all) :
    (working k).ReachesKind k quay.snapshot 7 false tariff p :=
  ⟨⟨_, ⟨⟨hk, hb, rfl, rfl, fun _ h => nomatch h⟩, rfl, .noEntry fun _ h => nomatch h⟩, hp⟩,
    .inl ⟨hl, by decide, by decide⟩⟩

/-- The terms of the card at the quay. -/
def cardTerms : Terms :=
  { Terms.plain .accept .paid with fare := 235, value := some ⟨265, 235, 9301⟩, charge := .fare }

theorem card_decides : (working card).Decides card quay.snapshot ((working card).lineOf .c0)
    (.accept cardTerms) false :=
  .charged false tariff _ _ 235 ⟨265, 235, 9301⟩ (quay_reaches card _ rfl rfl rfl rfl) rfl rfl (by decide)

theorem account_decides : (working { card with product := 3 }).Decides { card with product := 3 } quay.snapshot
    ((working { card with product := 3 }).lineOf .c0) (.refer (.account 235 475)) false :=
  .account false tariff _ (quay_reaches { card with product := 3 } _ rfl rfl rfl rfl) rfl

/-- A snapshot whose deny list names the card, asking for the block mark. -/
def denying : Snapshot := { quay.snapshot with deny := [⟨77, .lost, .block⟩] }

/-- The engine at work on the card under that snapshot. -/
def workingDenied : State :=
  { working card with engine := { (working card).engine with
      work := some ⟨.channel .c0, card, denying, false, .none⟩ } }

theorem witness_CompletionWithoutSeats_denied :
    workingDenied.Decides card denying (workingDenied.lineOf .c0) .deniedBlock false ∧
    (working card).Decides card { denying with deny := [⟨77, .lost, .refuse⟩] } 7 (.refuse .denied) false :=
  ⟨.denied _ tariff ⟨77, .lost, .block⟩ rfl rfl rfl rfl rfl,
    .denied _ tariff ⟨77, .lost, .refuse⟩ rfl rfl rfl rfl rfl⟩

/-- The channel of the work taken out of service, SUSPENDED, EGRESS_HELD, or left without its call. -/
theorem witness_CompletionWithoutSeats_stage_nine :
    ((working card).setChan .c0 { (working card).chan .c0 with service := .outOfService }).RefusesAtCompletion
      .c0 .notServed ∧
    ((working card).setChan .c0 { (working card).chan .c0 with state := .suspended }).RefusesAtCompletion
      .c0 .gangwayClosed ∧
    ((working card).setChan .c0 { (working card).chan .c0 with state := .egressHeld }).RefusesAtCompletion
      .c0 .egress ∧
    { working card with calls := .same .zeroed }.RefusesAtCompletion .c0 .notBoarding :=
  ⟨.service (by decide) (by decide) rfl, .suspended rfl, .egress rfl,
    .call (by decide) (by decide) rfl fun b _ => by cases b <;> rfl⟩

theorem ready : (working card).ReadyFor .c0 .b0 := ⟨by decide, by decide, rfl, rfl, by decide⟩

/-- Stage 10 answers FULL with three claims, and without a seat left. -/
theorem witness_CompletionWithoutSeats_full : threeClaims.ReadyFor .c0 .b0 ∧
    3 ≤ (threeClaims.claimsOf .c0).count ∧
    ∀ n, ¬{ working card with claims := wholeBoat.claims }.Grants .b0 1 false n := by
  refine ⟨⟨by decide, by decide, rfl, rfl, by decide⟩, by decide, ?_⟩
  rintro n (⟨h, _⟩ | ⟨h, _⟩) <;> revert h <;> decide

/-- The engine at work on a card with the host SILENT. -/
def workingUnheard (k : Card) : State := { working k with bus := { quay.bus with silent := true } }

/-- The engine at work on a card with both slots held. -/
def workingHeld (k : Card) : State :=
  ((working k).setSlot .s0 (some ⟨7, .c1, .b0, card, .unknownProduct, 1, true, 900⟩)).setSlot .s1
    (some ⟨8, .c2, .b0, card, .unknownProduct, 1, true, 900⟩)

/-- A card of no product with the host SILENT is refused by its fallback at once. -/
theorem witness_CompletionWithoutSeats_fallback :
    (workingUnheard { card with product := 50 }).RefusesCard { card with product := 50 } quay.snapshot
      ((workingUnheard card).lineOf .c0) .unknownProduct false :=
  .fallback .unknownProduct false
    ⟨.unknownProduct false _ tariff
      ⟨⟨rfl, rfl, rfl, rfl, fun _ h => nomatch h⟩, rfl, .noEntry fun _ h => nomatch h⟩ (by decide), .inl rfl⟩ rfl

theorem account_falls_back : (workingHeld { card with product := 3 }).AcceptsCard { card with product := 3 }
    quay.snapshot ((workingHeld card).lineOf .c0) (.plain .accept .account) taken false :=
  .fallback (.account 235 475) false 1 .account 1 false .accept
    ⟨.account false tariff ⟨3, .account, 2, .all⟩
      ⟨⟨_, ⟨⟨rfl, rfl, rfl, rfl, fun _ h => nomatch h⟩, rfl, .noEntry fun _ h => nomatch h⟩, rfl⟩,
        .inl ⟨rfl, by decide, by decide⟩⟩ rfl, .inr fun i => by cases i <;> decide⟩ rfl (.inl ⟨rfl, rfl⟩) rfl

/-- An account card with both slots held is accepted by its fallback at once, and meets a SUSPENDED channel, or
three claims. -/
theorem witness_CompletionWithoutSeats_fallback_accept :
    (workingHeld { card with product := 3 }).ReadyFor .c0 .b0 ∧
    ((workingHeld card).setChan .c0 { (workingHeld card).chan .c0 with state := .suspended }).RefusesAtCompletion
      .c0 .gangwayClosed ∧
    3 ≤ ({ workingHeld card with claims := threeClaims.claims }.claimsOf .c0).count :=
  ⟨⟨by decide, by decide, rfl, rfl, by decide⟩, .suspended rfl, by decide⟩

/-- An entry that the take found, and one that it did not. -/
theorem witness_CompletionWithoutSeats_applied :
    [Allotment.mk 9 0 10 8 2 0 4 none] = [] ++ Allotment.mk 9 0 10 8 2 0 4 none :: [] ∧
    (∀ b ∈ quay.snapshot.allot, b.token ≠ 9) := by decide

/-- The quay after a paid journey of the card that was not passed. -/
def paidBefore : State :=
  { working card with engine := { (working card).engine with
      journey := [⟨77, 90000, .b0, 7, .paidNotPassed, 190, .fare, 540⟩] } }

theorem witness_AcceptedWorkTakesSeats :
    (working card).power = .running ∧
    (working card).engine.work = some ⟨.channel .c0, card, quay.snapshot, false, .none⟩ ∧
    (working card).Decides card quay.snapshot ((working card).lineOf .c0) (.accept cardTerms) false ∧
    (working card).AcceptsCard card quay.snapshot ((working card).lineOf .c0) cardTerms taken false ∧
    (working card).ReadyFor .c0 .b0 ∧ ((working card).claimsOf .c0).count < 3 ∧
    (working card).Grants .b0 1 false 1 ∧ ((working card).port .c0).outstanding ≠ none ∧
    cardTerms.writes = true ∧ cardTerms.reuse = false :=
  ⟨rfl, rfl, card_decides, .stages _ _ card_decides, ready, by decide, .inl ⟨by decide, rfl⟩, by decide, rfl, rfl⟩

theorem witness_AcceptedWorkTakesSeats_again :
    paidBefore.Decides card quay.snapshot (paidBefore.lineOf .c0) (.accept .reused) false ∧
    paidBefore.engine.journey = [] ++ ⟨77, 90000, .b0, 7, .paidNotPassed, 190, .fare, 540⟩ :: [] :=
  ⟨.rerelease _ tariff _ ⟨rfl, rfl, rfl, rfl, fun _ h => nomatch h⟩ rfl
    ⟨[], [], rfl, rfl, fun _ h => nomatch h⟩ rfl (by decide) rfl, rfl⟩

/-- The engine at work on a token whose allotment has two seats left. -/
def workingToken : State :=
  { working { card with id := 9 } with
    tables := { quay.tables with allot := [⟨9, 0, 10, 2, 0, 8, 4, none⟩] } }

/-- A token asks for the two seats left and leaves none remaining, and a request for five is granted the
four of the headroom. -/
theorem witness_AcceptedWorkTakesSeats_token :
    workingToken.Decides { card with id := 9 } quay.snapshot 7
      (.accept { Terms.plain .acceptFree .allotment with seats := 2, partialOk := true, allot := some 9 })
      false ∧
    (working card).Grants .b0 5 true 4 ∧ (workingToken.allotOf 9).map Allotment.remaining = some 2 :=
  ⟨.token ⟨9, 0, 10, 2, 0, 8, 4, none⟩
    ⟨⟨_, tariff, rfl, rfl, rfl, rfl, fun _ h => nomatch h⟩, ⟨_, rfl, rfl⟩, fun _ _ h => (nomatch h), .inl rfl⟩
    (by decide), .inr ⟨rfl, by decide, by decide, by decide⟩, by decide⟩

/-- A fallback ACCEPT at the completion, with room for its seat. -/
theorem witness_AcceptedWorkTakesSeats_fallback :
    (workingHeld { card with product := 3 }).power = .running ∧
    (workingHeld { card with product := 3 }).engine.work =
      some ⟨.channel .c0, { card with product := 3 }, quay.snapshot, false, .none⟩ ∧
    ((workingHeld { card with product := 3 }).claimsOf .c0).count < 3 ∧
    (workingHeld { card with product := 3 }).Grants .b0 1 false 1 ∧
    ((workingHeld { card with product := 3 }).port .c0).outstanding ≠ none ∧
    (Terms.plain .accept .account).writes = true ∧ (Terms.plain .accept .account).reuse = false :=
  ⟨rfl, rfl, by decide, .inl ⟨by decide, rfl⟩, by decide, rfl, rfl⟩

/-- The engine at work on a token whose allotment has no seat left, with the host SILENT and every fallback
ACCEPT. -/
def workingSpent : State :=
  { workingUnheard { card with id := 9 } with
    tables := { quay.tables with allot := [⟨9, 0, 10, 0, 2, 8, 4, none⟩] }
    settings := { quay.settings with working := { quay.cfg with fallbackSpent := .accept } } }

/-- The fallback of a spent allotment asks for its block. -/
theorem witness_AcceptedWorkTakesSeats_spent :
    workingSpent.AcceptsCard { card with id := 9 } quay.snapshot 7
      { Terms.plain .acceptFree .free with seats := 4, partialOk := true } taken false ∧
    workingSpent.Grants .b0 4 true 4 :=
  ⟨.fallback (.allotmentSpent 10 8) false 4 .free 4 true .acceptFree
    ⟨.tokenSpent ⟨9, 0, 10, 0, 2, 8, 4, none⟩
      ⟨⟨_, tariff, rfl, rfl, rfl, rfl, fun _ h => nomatch h⟩, ⟨_, rfl, rfl⟩, fun _ _ h => (nomatch h), .inl rfl⟩
      rfl, .inl rfl⟩ rfl (.inr ⟨_, rfl, rfl⟩) rfl, .inl ⟨by decide, rfl⟩⟩

/-- The engine at work on the card after an UNCERTAIN entry whose tag the card does not carry. -/
def uncertainBefore : State :=
  { working card with engine := { (working card).engine with
      journey := [⟨77, 90000, .b0, 7, .uncertain, 190, .fare, 540⟩] } }

theorem witness_AcceptedWorkTakesSeats_mismatch :
    uncertainBefore.JourneyPasses card 7 true :=
  .mismatch _ ⟨[], [], rfl, rfl, fun _ h => nomatch h⟩ rfl (by decide) fun _ h => nomatch h

theorem witness_ReferralsAreRaisedAndAnswered :
    (working { card with product := 3 }).Decides { card with product := 3 } quay.snapshot
      ((working { card with product := 3 }).lineOf .c0) (.refer (.account 235 475)) false ∧
    (working { card with product := 3 }).bus.silent = false ∧
    (working { card with product := 3 }).slot .s0 = none ∧ quay.slot .s0 = none ∧ quay.slot .s1 = none ∧
    5000 ≤ 5000 ∧ 999 ≤ 999 ∧ 5000 < 5001 ∧ 999 < 1000 ∧
    (referred .s1).slot .s1 = some ⟨7, .c0, .b0, { card with product := 3 }, .account 190 475, 1, true, 0⟩ ∧
    (referred .s1).slot .s0 = none ∧ (referred .s1).ReadyFor .c0 .b0 ∧
    ((referred .s1).claimsOf .c0).count < 3 ∧ 1 ≤ (referred .s1).headroom .b0 ∧
    ((referred .s1).port .c0).outstanding ≠ none :=
  ⟨account_decides, rfl, rfl, rfl, rfl, by decide, by decide, by decide, by decide, rfl, rfl,
    ⟨by decide, by decide, rfl, rfl, by decide⟩, by decide, by decide, by decide⟩

/-- The quay with a case of another cause referred in slot 0, for a token of a spent allotment. -/
def referredFor (cause : Cause) : State :=
  { quay with
    tables := { quay.tables with allot := [⟨9, 0, 10, 0, 2, 8, 4, none⟩] }
    ports := quay.ports.set .c0 { quay.port .c0 with outstanding := some { card with id := 9 } } }.setSlot
    .s0 (some ⟨7, .c0, .b0, { card with id := 9 }, cause, 4, true, 0⟩)

/-- What an ACCEPT of such a case asks of its state. -/
def acceptable (s : State) : Prop :=
  s.power = .running ∧ s.ReadyFor .c0 .b0 ∧ (s.claimsOf .c0).count < 3 ∧ 1 ≤ s.headroom .b0 ∧
  (s.port .c0).outstanding ≠ none ∧ s.allotOf 9 = some ⟨9, 0, 10, 0, 2, 8, 4, none⟩ ∧ 10 + 999 ≤ 9999 ∧
  (s.setChan .c0 { s.chan .c0 with state := .suspended }).RefusesAtCompletion .c0 .gangwayClosed

theorem witness_ReferralsAreRaisedAndAnswered_unknownProduct : acceptable (referredFor .unknownProduct) ∧
    (referredFor .unknownProduct).slot .s0 =
      some ⟨7, .c0, .b0, { card with id := 9 }, .unknownProduct, 4, true, 0⟩ :=
  ⟨⟨rfl, ⟨by decide, by decide, rfl, rfl, rfl⟩, by decide, by decide, by decide, rfl, by decide,
    .suspended rfl⟩, rfl⟩

theorem witness_ReferralsAreRaisedAndAnswered_allotmentSpent :
    acceptable (referredFor (.allotmentSpent 10 8)) ∧
    (referredFor (.allotmentSpent 10 8)).slot .s0 =
      some ⟨7, .c0, .b0, { card with id := 9 }, .allotmentSpent 10 8, 4, true, 0⟩ :=
  ⟨⟨rfl, ⟨by decide, by decide, rfl, rfl, rfl⟩, by decide, by decide, by decide, rfl, by decide,
    .suspended rfl⟩, rfl⟩

/-- An answer takes the last seats of the call and of the allotment, and its verdict goes out. -/
theorem witness_ReferralsAreRaisedAndAnswered_last :
    min (min (0 + 4) 4) ((referredFor (.allotmentSpent 10 8)).headroom .b0) = 4 ∧
    (referredFor (.allotmentSpent 10 8)).headroom .b0 = 4 ∧
    ((referredFor (.allotmentSpent 10 8)).port .c0).sending = none := by decide

/-- The quay with an account case referred, and no room: three claims on its channel, or no headroom. -/
def noRoom (claims : PerChan ChannelClaims) : State := { referred .s0 with claims := claims }

theorem witness_ReferralsAreRaisedAndAnswered_full :
    (noRoom threeClaims.claims).ReadyFor .c0 .b0 ∧ 3 ≤ ((noRoom threeClaims.claims).claimsOf .c0).count ∧
    (noRoom wholeBoat.claims).ReadyFor .c0 .b0 ∧ (noRoom wholeBoat.claims).headroom .b0 = 0 ∧
    (noRoom wholeBoat.claims).slot .s0 =
      some ⟨7, .c0, .b0, { card with product := 3 }, .account 190 475, 1, true, 0⟩ :=
  ⟨⟨by decide, by decide, rfl, rfl, by decide⟩, by decide, ⟨by decide, by decide, rfl, rfl, by decide⟩,
    by decide, rfl⟩

/-- The quay with the supervision timer at the end of its period. -/
def unheard : State := { referred .s0 with bus := { quay.bus with supervision := some 0 } }

/-- Every fallback ACCEPT, with a spent allotment referred. -/
def accepting : State :=
  { referredFor (.allotmentSpent 10 8) with settings := { quay.settings with working := { quay.cfg with
      fallbackUnknown := .accept, fallbackSpent := .accept } } }

theorem witness_ReferralsFallBack : (referred .s0).power = .running ∧
    (referred .s0).slot .s0 = some ⟨7, .c0, .b0, { card with product := 3 }, .account 190 475, 1, true, 0⟩ ∧
    (referred .s0).cfg.fallbackAccount = .accept ∧ (referred .s0).cfg.fallbackUnknown = .refuse ∧
    (referred .s0).cfg.fallbackSpent = .refuse ∧ accepting.cfg.fallbackSpent = .accept ∧
    accepting.cfg.fallbackUnknown = .accept ∧ accepting.ReadyFor .c0 .b0 ∧ 1 ≤ accepting.headroom .b0 ∧
    (accepting.claimsOf .c0).count < 3 ∧ (accepting.port .c0).outstanding ≠ none ∧
    unheard.power = .running ∧ unheard.bus.supervision = some 0 ∧ unheard.bus.silent = false :=
  ⟨rfl, rfl, rfl, rfl, rfl, rfl, rfl, ⟨by decide, by decide, rfl, rfl, by decide⟩, by decide, by decide,
    by decide, rfl, rfl, rfl⟩

/-- A fallback ACCEPT that stage 9 refuses, or that finds no room. -/
theorem witness_ReferralsFallBack_refused : (referred .s0).FallbackIs .accept (.account 190 475) ∧
    ((referred .s0).setChan .c0 { (referred .s0).chan .c0 with state := .suspended }).RefusesAtCompletion
      .c0 .gangwayClosed ∧
    (noRoom threeClaims.claims).FallbackIs .accept (.account 190 475) ∧
    (noRoom threeClaims.claims).power = .running ∧ 1 ≤ (1 : Nat) :=
  ⟨rfl, .suspended rfl, rfl, rfl, Nat.le_refl 1⟩

/-- The supervision timer at the end of its period with a case in each slot. -/
def unheardCases : State :=
  unheard.setSlot .s1 (some ⟨8, .c1, .b0, card, .unknownProduct, 1, true, 0⟩)

theorem witness_ReferralsFallBack_both : unheardCases.power = .running ∧
    unheardCases.bus.supervision = some 0 ∧ unheardCases.bus.silent = false ∧
    (unheardCases.slot .s0).map Referral.id = some 7 ∧ (unheardCases.slot .s1).map Referral.id = some 8 := by
  decide

theorem witness_PresentAndWithdraw :
    crowd.power = .running ∧ (crowd.port .c1).line = .up ∧ Card.parse card.octets = some card ∧
    ({ crowd with ports := quay.ports }.port .c0).outstanding = none ∧
    ({ crowd with ports := quay.ports }.port .c0).awaited = none ∧ crowd.engine.work ≠ none ∧
    crowd.arrivalRefusal .c0 = none ∧ suspended.arrivalRefusal .c0 = some .gangwayClosed ∧
    withdrawCard (octetsOf 8 77) = some 77 ∧ (crowd.port .c1).outstanding = some card ∧ card.id = 77 ∧
    card.id ≠ 78 := by decide +kernel

theorem quay_derived : Safety.ChannelsDerived quay := by
  intro _ c
  cases c <;> decide

/-- A PRESENT that finds the engine FREE, one over an earlier presentation, and one over an awaited write. -/
theorem witness_PresentAndWithdraw_taken :
    (Safety.ChannelsDerived quay ∧ quay.power = .running ∧ (quay.port .c0).line = .up ∧
      (quay.port .c0).outstanding = none ∧ (quay.port .c0).awaited = none ∧ quay.arrivalRefusal .c0 = none ∧
      quay.engine.work = none ∧ quay.arbiter.places = .same none ∧ quay.arbiter.desk = none ∧
      (quay.claimsOf .c0).count < 3) ∧
    (Safety.ChannelsDerived crowd ∧ (crowd.port .c1).line = .up ∧ (crowd.port .c1).outstanding ≠ none ∧
      (crowd.port .c1).awaited = none ∧ crowd.arrivalRefusal .c1 = none ∧ crowd.engine.work ≠ none) ∧
    (crowd.port .c0).line = .up ∧ (crowd.port .c0).outstanding = none ∧
      (crowd.port .c0).awaited = some ⟨541, 700⟩ ∧
      (crowd.claimsOf .c0).provisional = [] ++ waitingClaim :: [] ∧ waitingClaim.tag = some 541 :=
  ⟨⟨quay_derived, by decide⟩, ⟨witness_ChannelsStayDerived, by decide⟩, by decide⟩

/-- A PRESENT over a presentation with the engine FREE: the earlier one held in a referral slot, or waiting behind
3 claims. -/
def presentedOver (claims : List Claim) : State :=
  { referred .s0 with claims := quay.claims.set .c0 ⟨[], claims⟩ }

theorem witness_PresentAndWithdraw_over : Safety.ChannelsDerived (presentedOver []) ∧
    Safety.ChannelsDerived (presentedOver (List.replicate 3 { waitingClaim with granted := 1 })) ∧
    ((presentedOver []).port .c0).outstanding ≠ none ∧ (presentedOver []).engine.work = none ∧
    Safety.FreeEngineIdle (presentedOver []) ∧ (presentedOver []).arrivalRefusal .c0 = none ∧
    Safety.FreeEngineIdle (presentedOver (List.replicate 3 { waitingClaim with granted := 1 })) ∧
    ¬((presentedOver (List.replicate 3 { waitingClaim with granted := 1 })).claimsOf .c0).count < 3 := by
  refine ⟨?_, ?_, by decide, rfl, fun _ => rfl, rfl, fun _ => rfl, by decide⟩
  · intro _ c
    cases c <;> decide
  · intro _ c
    cases c <;> decide

/-- A write whose claim is already gone. -/
theorem witness_WritesEnd_gone : { crowd with claims := .same .none }.power = .running ∧
    ({ crowd with claims := .same .none }.port .c0).awaited = some ⟨541, 700⟩ ∧
    (∀ x ∈ ({ crowd with claims := .same .none }.claimsOf .c0).provisional, x.tag ≠ some 541) ∧
    (crowd.port .c0).line = .up ∧ writeResultOf (octetsOf 2 541 ++ [0]) = some (541, true) := by decide +kernel

theorem witness_WritesEnd : crowd.power = .running ∧ (crowd.port .c0).awaited = some ⟨541, 700⟩ ∧
    (crowd.port .c0).line = .up ∧ writeResultOf (octetsOf 2 541 ++ [0]) = some (541, true) ∧
    writeResultOf (octetsOf 2 541 ++ [1]) = some (541, false) ∧
    writeResultOf (octetsOf 2 540 ++ [0]) = some (540, true) ∧ 540 ≠ 541 ∧
    (crowd.claimsOf .c0).provisional = [] ++ waitingClaim :: [] ∧ waitingClaim.tag = some 541 ∧
    (AwaitedWrite.mk 541 0).left = 0 := by decide +kernel

/-- The quay with a frame going out to channel 0's reader and another waiting. -/
def sending : State :=
  { quay with ports := quay.ports.set .c0 { quay.port .c0 with
      sending := some (.mode .opened)
      waiting := [.verdict (plainVerdict card .full)] } }

/-- The quay with channel 0's reader ATTACHING. -/
def attaching : State :=
  { quay with ports := quay.ports.set .c0 { quay.port .c0 with line := .attaching, attach := some 0 } }

theorem witness_ReaderFramesAreHeard : quay.power = .running ∧ (quay.port .c0).line ≠ .down ∧
    (quay.port .c1).line = .down ∧ (attaching.port .c0).line = .attaching ∧
    (attaching.port .c0).attach = some 0 ∧ (sending.port .c0).sending = some (.mode .opened) ∧
    (sending.port .c0).waiting = .verdict (plainVerdict card .full) :: [] := by decide

/-- The crowd with channel 0's reader silent for 3 s. -/
def unheardReader : State :=
  { crowd with ports := crowd.ports.set .c0 { crowd.port .c0 with inactivity := some 0 } }

theorem witness_ReaderLinesComeAndGo : attaching.power = .running ∧
    (attaching.port .c0).line = .attaching ∧ (crowd.port .c0).line = .up ∧
    (unheardReader.port .c0).line = .up ∧ (unheardReader.port .c0).inactivity = some 0 ∧
    (unheardReader.port .c0).awaited = some ⟨541, 700⟩ ∧ (quay.port .c0).awaited = none ∧
    (crowd.claimsOf .c0).provisional = [] ++ waitingClaim :: [] ∧
    (crowd.port .c1).outstanding ≠ none ∧ crowd.engine.work.map Work.requester = some (.channel .c1) ∧
    (crowd.port .c1).sending = none ∧ (sending.port .c0).line = .up ∧ (sending.port .c0).sending ≠ none := by
  decide

end Sys2Proof.Tests
end

section
/-! The ledger of the part: the fields that the conditions kept by every step speak of, the elementary
changes that an event makes to them, and for each operation of the model the chain of changes it is. The
conditions on records, calls and capacity are then shown of the elementary changes alone. -/

namespace Sys2Proof.Machine

/-! ### The over-capacity mark (R28) -/

/-- A call record whose mark is set where it holds more than its capacity, with the seats held (R28). -/
def Call.markedAt (k : Call) (held : Nat) : Call :=
  { k with overCapacity := k.overCapacity || decide (k.capacity < k.aboard + held) }

/-- A record that is marked, or within its capacity, is kept by marking. -/
theorem Call.markedAt_self {k : Call} {held : Nat}
    (h : k.overCapacity = true ∨ ¬k.capacity < k.aboard + held) : k.markedAt held = k := by
  have hm : (k.overCapacity || decide (k.capacity < k.aboard + held)) = k.overCapacity := by
    rcases h with h | h <;> simp [h]
  rw [markedAt, hm]

/-- The notice of a mark that is newly set (R28). -/
def Call.markNotice (k : Call) (b : Berth) (cause : MarkCause) (held : Nat) : List Notice :=
  if k.capacity < k.aboard + held ∧ k.overCapacity = false then
    [.overCapacity b k.vessel cause k.capacity k.aboard held]
  else []

namespace State

theorem queue_eq (s : State) (n : Notice) : s.queue n = { s with notices := addNotice s.notices n } := by
  unfold queue addNotice
  split <;> rfl

theorem queueAll_eq (s : State) (ns : List Notice) :
    s.queueAll ns = { s with notices := ns.foldl addNotice s.notices } := by
  obtain ⟨q, h⟩ := queueAll_frame s ns
  rw [← queueAll_notices, h]

@[simp] theorem set_self {α : Type} (p : PerBerth α) (b : Berth) : p.set b (p.get b) = p := by
  cases b <;> rfl

theorem setCall_self (s : State) (b : Berth) : s.setCall b (s.call b) = s := by
  simp [setCall, call]

/-- Marking a call that is over capacity sets its mark and queues the notice of a mark newly set (R28). -/
theorem markIfOver_eq (s : State) (b : Berth) (cause : MarkCause) :
    s.markIfOver b cause =
      (s.setCall b ((s.call b).markedAt (s.held b))).queueAll ((s.call b).markNotice b cause (s.held b)) := by
  unfold markIfOver overFull
  by_cases hover : (s.call b).capacity < (s.call b).aboard + s.held b
  · cases hmark : (s.call b).overCapacity
    · simp [aboard, hover, hmark, Call.markedAt, Call.markNotice, queueAll]
    · rw [Call.markedAt_self (.inl hmark), setCall_self]
      simp [hmark, Call.markNotice, queueAll]
  · rw [Call.markedAt_self (.inr hover), setCall_self]
    simp [aboard, hover, Call.markNotice, queueAll]

@[simp] theorem setCall_setCall (s : State) (b : Berth) (k m : Call) :
    (s.setCall b k).setCall b m = s.setCall b m := by
  cases b <;> rfl

/-- Marking a record that has just been put in place (R28). -/
theorem markIfOver_setCall (s : State) (b : Berth) (k : Call) (cause : MarkCause) :
    (s.setCall b k).markIfOver b cause =
      (s.setCall b (k.markedAt (s.held b))).queueAll (k.markNotice b cause (s.held b)) := by
  rw [markIfOver_eq, setCall_setCall, call_setCall, if_pos rfl]
  rfl

end State

/-! ### The ledger -/

/-- The fields of the state that the conditions on records, calls and capacity speak of. -/
structure Ledger where
  notices : NoticeQueue
  journey : List JourneyEntry
  nextTag : Nat
  nextReferral : Nat
  working : Settings
  writeCount : Nat
  clock : Option ClockTime
  calls : PerBerth Call
  callTimers : PerBerth CallTimers
  claims : PerChan ChannelClaims
  egressActive : Bool
  tallies : PerChan Tallies

/-- The ledger of a state. -/
def State.ledger (s : State) : Ledger where
  notices := s.notices
  journey := s.engine.journey
  nextTag := s.engine.nextTag
  nextReferral := s.engine.nextReferral
  working := s.settings.working
  writeCount := s.settings.writeCount
  clock := s.clock
  calls := s.calls
  callTimers := s.callTimers
  claims := s.claims
  egressActive := s.egress.active
  tallies := .of fun c => (s.chan c).tallies

/-- One elementary change of the ledger within an event that found the part in state `o`; `entry` says that
the event may enter egress. A change that rests on what the event found says so of `o`. -/
inductive Change (o : State) (entry : Prop) : State → State → Prop
  | same {s t : State} : t.ledger = s.ledger → Change o entry s t
  | notice (s : State) (n : Notice) : Change o entry s { s with notices := State.addNotice s.notices n }
  | delivered (s : State) (rest : List (Nat × Notice)) (dropped : Bool) :
      rest.length ≤ s.notices.queue.length →
      Change o entry s { s with notices := { s.notices with queue := rest, dropped := dropped } }
  | journey (s : State) (j : List JourneyEntry) :
      j.length ≤ s.engine.journey.length ∨ j.length ≤ Config.journeySize →
      Change o entry s (s.setJourney j)
  | tag (s : State) : Change o entry s s.drawTag
  | referralId (s : State) : Change o entry s { s with engine := { s.engine with
      nextReferral := if s.engine.nextReferral = 255 then 1 else s.engine.nextReferral + 1 } }
  | working (s : State) (k : Settings) : (s.cfg.InRange → k.InRange) →
      Change o entry s { s with settings := { s.settings with working := k } }
  | stored (s : State) : s.settings.writeCount < Config.storeLimit →
      Change o entry s { s with settings := { s.settings with writeCount := s.settings.writeCount + 1 } }
  | clock (s : State) (now : ClockTime) : now.secs ≤ Config.lastSecond →
      Change o entry s { s with clock := some now }
  | tally (s : State) (c : Chan) (t : Tallies) :
      ((∀ n ∈ (s.chan c).tallies.counts, n ≤ Config.countMax) → ∀ n ∈ t.counts, n ≤ Config.countMax) →
      Change o entry s (s.setTallies c t)
  | egress (s : State) (e : Egress) : (e.active = true → s.egress.active = true ∨ entry) →
      Change o entry s { s with egress := e }
  | ticked (s : State) : Change o entry s s.tick
  | fresh (s : State) (cause : StartCause) (found : Found) : Change o entry s (s.cleared cause found)
  | opened (s : State) (b : Berth) (vessel line capacity declared dwell : Nat) :
      (o.call b).state = .vacant → s.calls = o.calls → s.claims = o.claims → o.egress.active = false →
      Change o entry s (s.setCall b (s.openedCall vessel line capacity declared dwell))
  | boarding (s : State) (b : Berth) (at_ : Stamp) (dwell : Nat) : (s.call b).state = .alongside →
      Change o entry s ((s.setCall b { s.call b with state := .boarding, boardingStarted := at_ }).setTimers b
        ⟨some dwell, (s.timersOf b).lastCall⟩)
  | lastCall (s : State) (b : Berth) (at_ : Stamp) (limit : Nat) : (s.call b).state = .boarding →
      Change o entry s ((s.setCall b { s.call b with state := .lastCall, lastCallAt := at_ }).setTimers b
        ⟨none, some limit⟩)
  | ended (s : State) (b : Berth) (at_ : Stamp) (reason : EndReason) :
      Change o entry s ((s.setCall b { s.call b with
        state := .ended, endReason := reason, endedAt := at_ }).setTimers b .stopped)
  | collected (s : State) (b : Berth) : (s.call b).state = .ended →
      Change o entry s (s.setCall b .zeroed)
  | adjusted (s : State) (b : Berth) (delta : Int) : (s.call b).state.isOpen = true →
      Change o entry s (s.setCall b (if 0 < delta then ((s.call b).adjust delta).markedAt (s.held b)
        else (s.call b).adjust delta))
  | fare (s : State) (k : Claim) (fares accountFares : Nat) :
      (∃ c, k ∈ (o.claimsOf c).every) → s.calls = o.calls →
      Change o entry s (s.setCall k.berth { s.call k.berth with fares := fares, accountFares := accountFares })
  | alighted (s : State) (b : Berth) : (s.call b).state.isOpen = true →
      (s.call b).alighted < (s.call b).declared + (s.call b).boarded.sum →
      Change o entry s (s.setCall b { s.call b with alighted := bump (s.call b).alighted })
  | excess (s : State) (b : Berth) : (s.call b).state.isOpen = true →
      Change o entry s (s.setCall b { s.call b with excess := bump (s.call b).excess })
  | unpaid (s : State) (b : Berth) : (s.call b).state.isOpen = true →
      Change o entry s (s.setCall b ({ s.call b with
        boarded := { (s.call b).boarded with unpaid := bump (s.call b).boarded.unpaid } }.markedAt (s.held b)))
  | passed (s : State) (c : Chan) (b : Berth) (k : Claim) (ks : List Claim) (window : Nat) :
      s.calls = o.calls → s.claims = o.claims → o.berthOf c = some b → (s.call b).state.isOpen = true →
      (s.claimsOf c).live = k :: ks →
      Change o entry s ((s.setCall b { s.call b with
        boarded := (s.call b).boarded.count k.kind }).setClaims c { s.claimsOf c with
          live := if k.passed + 1 < k.granted then { k with passed := k.passed + 1, window := window } :: ks
            else promote window ks })
  | released (s : State) (c : Chan) (k : ChannelClaims) :
      (∀ b, k.heldOn b ≤ (s.claimsOf c).heldOn b) → Change o entry s (s.setClaims c k)
  | granted (s : State) (c : Chan) (b : Berth) (k : ChannelClaims) (n : Nat) :
      (∀ d, k.heldOn d = (s.claimsOf c).heldOn d + if d = b then n else 0) → n ≤ s.headroom b →
      Change o entry s (s.setClaims c k)
  | forced (s : State) (c : Chan) (b : Berth) (k : ChannelClaims) (n : Nat) :
      (s.call b).state.isOpen = true →
      (∀ d, k.heldOn d = (s.claimsOf c).heldOn d + if d = b then n else 0) →
      Change o entry s ((s.setCall b ((s.call b).markedAt (s.held b + n))).setClaims c k)

/-- A chain of elementary changes within an event that found the part in state `o`. -/
abbrev Chain (o : State) (entry : Prop) : State → State → Prop := Relation.ReflTransGen (Change o entry)

/-- A chain after another: the later part first, so that what is left to show ends where it begins. -/
theorem Chain.after {o : State} {entry : Prop} {s t u : State} (h : Chain o entry t u) (g : Chain o entry s t) :
    Chain o entry s u := g.trans h

/-- A chain, and after it a change of nothing in the ledger. -/
theorem Chain.same {o : State} {entry : Prop} {s t u : State} (h : Chain o entry s t) (e : u.ledger = t.ledger) :
    Chain o entry s u := h.tail (.same e)

/-- What an event does to the ledger: a chain of changes from the state found, and where egress may be
entered no call is open after it. -/
def Moves (o t : State) : Prop :=
  ∃ entry : Prop, Chain o entry o t ∧ (entry → ∀ b, (t.call b).state.isOpen = false)

theorem Moves.of_chain {o t : State} (h : Chain o False o t) : Moves o t := ⟨False, h, False.elim⟩

end Sys2Proof.Machine
end

section
/-! What each elementary change of the ledger keeps: the sizes and ranges of records, the soundness of calls,
and the over-capacity mark. -/

namespace Sys2Proof.Machine

open Safety

variable {o s t : State} {entry : Prop}

/-- What every elementary change keeps, a chain of them keeps. -/
theorem Chain.keeps {P : State → Prop} (step : ∀ s t, Change o entry s t → P s → P t)
    (h : Chain o entry s t) (hs : P s) : P t := by
  induction h with
  | refl => exact hs
  | tail _ last ih => exact step _ _ last ih

/-! ### Figures of records and settings -/

theorem addNotice_length_le (q : NoticeQueue) (n : Notice) (h : q.queue.length ≤ Config.noticeQueueSize) :
    (State.addNotice q n).queue.length ≤ Config.noticeQueueSize := by
  unfold State.addNotice
  split
  · simpa using (by assumption : q.queue.length < _)
  · exact h

theorem addNotice_nextSeq (q : NoticeQueue) (n : Notice) (h : within q.nextSeq 1 65535 = true) :
    within (State.addNotice q n).nextSeq 1 65535 = true := by
  unfold State.addNotice
  simp only [within, Bool.and_eq_true, decide_eq_true_eq] at *
  split
  · dsimp only
    split <;> omega
  · exact h

theorem within_iff {n lo hi : Nat} : within n lo hi = true ↔ lo ≤ n ∧ n ≤ hi := by
  simp [within]

/-- A setting put by number lies in its range (Table 12-1). -/
theorem Settings.put_inRange {k m : Settings} {n : Nat} {v : SettingValue} (h : k.put n v = some m)
    (hk : k.InRange) : m.InRange := by
  have hnum : ∀ {lo hi x : Nat} {v}, numSetting lo hi v = some x → within x lo hi = true := by
    intro lo hi x v h
    unfold numSetting at h
    split at h
    · split at h
      · cases h; assumption
      · cases h
    · cases h
  have hrep : ∀ {x : Nat} {v}, reportSetting v = some x → x = 0 ∨ within x 5 300 = true := by
    intro x v h
    unfold reportSetting at h
    split at h
    · cases h; exact .inl rfl
    · exact .inr (hnum h)
  have hset : ∀ (lo hi : Nat) (p : PerChan Nat) (c : Chan) (x : Nat), (∀ d, within (p.get d) lo hi = true) →
      within x lo hi = true → ∀ d, within ((p.set c x).get d) lo hi = true := by
    intro lo hi p c x hp hx d
    rw [PerChan.get_set]
    split
    · exact hx
    · exact hp d
  unfold Settings.put at h
  split at h
  case h_32 => cases h
  all_goals obtain ⟨x, hx, rfl⟩ := Option.map_eq_some_iff.mp h
  case h_1 => exact { hk with busAddress := hnum hx }
  case h_2 => exact { hk with pierNumber := hnum hx }
  case h_3 | h_4 | h_5 | h_6 => exact { hk with }
  case h_7 | h_8 | h_9 | h_10 => exact { hk with level := hset _ _ _ _ _ hk.level (hnum hx) }
  case h_11 | h_12 | h_13 | h_14 => exact { hk with passWindow := hset _ _ _ _ _ hk.passWindow (hnum hx) }
  case h_15 | h_16 | h_17 | h_18 => exact { hk with }
  case h_19 => exact { hk with lastCallLevel := hnum hx }
  case h_20 => exact { hk with lastCallLimit := hnum hx }
  case h_21 => exact { hk with referralTimeout := hnum hx }
  case h_22 | h_23 | h_24 => exact { hk with }
  case h_25 => exact { hk with passbackInterval := hnum hx }
  case h_26 => exact { hk with rereleaseGrace := hnum hx }
  case h_27 => exact { hk with supervisionPeriod := hnum hx }
  case h_28 => exact { hk with suspendLimit := hnum hx }
  case h_29 => exact { hk with countReportPeriod := hrep hx }
  case h_30 => exact { hk with deskLevel := hnum hx }
  case h_31 => exact { hk with agingLimit := hnum hx }

/-- The values of an image, put in order over settings in their ranges, lie in their ranges (R184). -/
theorem Settings.putFrom_inRange {k m : Settings} {n : Nat} {vs : List SettingValue}
    (h : k.putFrom n vs = some m) (hk : k.InRange) : m.InRange := by
  induction vs generalizing k n with
  | nil => cases h; exact hk
  | cons v vs ih =>
    obtain ⟨l, hl, h⟩ := Option.bind_eq_some_iff.mp h
    exact ih h (Settings.put_inRange hl hk)

theorem Settings.default_inRange : Settings.default.InRange where
  busAddress := by decide
  pierNumber := by decide
  level c := by cases c <;> decide
  passWindow c := by cases c <;> decide
  lastCallLevel := by decide
  lastCallLimit := by decide
  referralTimeout := by decide
  passbackInterval := by decide
  rereleaseGrace := by decide
  supervisionPeriod := by decide
  suspendLimit := by decide
  countReportPeriod := by decide
  deskLevel := by decide
  agingLimit := by decide

/-- The settings of a valid image lie in their ranges (R184). -/
theorem loadImage_inRange {i : StoredImage} {k : Settings} (h : loadImage i = some k) : k.InRange := by
  unfold loadImage at h
  split at h
  · exact Settings.putFrom_inRange h Settings.default_inRange
  · cases h

theorem loadImage_getD_inRange (i : StoredImage) : ((loadImage i).getD .default).InRange := by
  cases h : loadImage i with
  | none => exact Settings.default_inRange
  | some k => exact loadImage_inRange h

/-! ### Records, queues and counters -/

theorem Change.queuesBounded (h : Change o entry s t) (hs : QueuesBounded s) : QueuesBounded t := by
  obtain ⟨hq, hj⟩ := hs
  cases h with
  | same h =>
    rw [QueuesBounded, show t.notices = s.notices from congrArg Ledger.notices h,
      show t.engine.journey = s.engine.journey from congrArg Ledger.journey h]
    exact ⟨hq, hj⟩
  | notice n => exact ⟨addNotice_length_le _ n hq, hj⟩
  | delivered rest dropped h => exact ⟨h.trans hq, hj⟩
  | journey j h => exact ⟨hq, h.elim (·.trans hj) id⟩
  | fresh cause found => exact ⟨Nat.le_add_left 1 31, Nat.zero_le _⟩
  | _ => exact ⟨hq, hj⟩

theorem Change.countersRun (h : Change o entry s t) (hs : CountersRun s) : CountersRun t := by
  obtain ⟨ht, hr, hn⟩ := hs
  cases h with
  | same h =>
    rw [CountersRun, show t.notices = s.notices from congrArg Ledger.notices h,
      show t.engine.nextTag = s.engine.nextTag from congrArg Ledger.nextTag h,
      show t.engine.nextReferral = s.engine.nextReferral from congrArg Ledger.nextReferral h]
    exact ⟨ht, hr, hn⟩
  | notice n => exact ⟨ht, hr, addNotice_nextSeq _ n hn⟩
  | tag =>
    refine ⟨?_, hr, hn⟩
    rw [within_iff] at ht ⊢
    unfold State.drawTag
    dsimp only
    split <;> omega
  | referralId =>
    refine ⟨ht, ?_, hn⟩
    rw [within_iff] at hr ⊢
    dsimp only
    split <;> omega
  | fresh cause found => exact ⟨rfl, rfl, rfl⟩
  | _ => exact ⟨ht, hr, hn⟩

theorem Change.settingsInRange (h : Change o entry s t) (hs : SettingsInRange s) : SettingsInRange t := by
  cases h with
  | same h =>
    rw [SettingsInRange, State.cfg, show t.settings.working = s.settings.working from congrArg Ledger.working h]
    exact hs
  | working k h => exact h hs
  | fresh cause found => exact loadImage_getD_inRange _
  | _ => exact hs

theorem Change.storesCounted (h : Change o entry s t) (hs : StoresCounted s) : StoresCounted t := by
  cases h with
  | same h =>
    rw [StoresCounted, show t.settings.writeCount = s.settings.writeCount from congrArg Ledger.writeCount h]
    exact hs
  | stored h => exact h
  | _ => exact hs

theorem Change.clockInRange (h : Change o entry s t) (hs : ClockInRange s) : ClockInRange t := by
  cases h with
  | same h =>
    rw [ClockInRange, show t.clock = s.clock from congrArg Ledger.clock h]
    exact hs
  | clock now h =>
    intro u hu
    cases hu
    exact h
  | fresh cause found =>
    intro u hu
    cases hu
  | _ => exact hs

/-! ### Counts -/

/-- A record put in place with counts in their saturation keeps every count there. -/
theorem countsBounded_setCall (b : Berth) {k : Call} (hs : CountsBounded s)
    (hk : (∀ n ∈ (s.call b).counts, n ≤ Config.countMax) → ∀ n ∈ k.counts, n ≤ Config.countMax) :
    CountsBounded (s.setCall b k) := by
  refine ⟨fun d => ?_, hs.2⟩
  rw [State.call_setCall]
  split
  · exact hk (hs.1 b)
  · exact hs.1 d

/-- A boarding of any kind keeps the counts of a record in their saturation. -/
theorem Call.count_bounded (k : Call) (kind : ClaimKind) (h : ∀ n ∈ k.counts, n ≤ Config.countMax) :
    ∀ n ∈ ({ k with boarded := k.boarded.count kind } : Call).counts, n ≤ Config.countMax := by
  simp only [Call.counts, List.forall_mem_cons, List.not_mem_nil, false_imp_iff, implies_true, and_true] at h ⊢
  obtain ⟨h1, h2, h3, h4, h5, h6, h7, h8⟩ := h
  cases kind <;> simp [Boarded.count, bump_le, *]

theorem Call.adjust_bounded (k : Call) (delta : Int) (h : ∀ n ∈ k.counts, n ≤ Config.countMax) :
    ∀ n ∈ (k.adjust delta).counts, n ≤ Config.countMax := by
  simp only [Call.counts, Call.adjust, List.forall_mem_cons, List.not_mem_nil, false_imp_iff, implies_true,
    and_true] at h ⊢
  obtain ⟨h1, h2, h3, h4, h5, h6, h7, h8⟩ := h
  refine ⟨h1, h2, h3, h4, h5, h6, (Nat.min_le_left _ _).trans h7, ?_⟩
  split
  · exact Nat.min_le_right _ _
  · exact h8

theorem Change.countsBounded (h : Change o entry s t) (hs : CountsBounded s) : CountsBounded t := by
  cases h with
  | same h =>
    have hk : t.calls = s.calls := congrArg Ledger.calls h
    have ht : ∀ c, (t.chan c).tallies = (s.chan c).tallies := fun c => by
      simpa [State.ledger] using congrArg (fun l => l.tallies.get c) h
    refine ⟨fun b => ?_, fun c => ?_⟩
    · rw [State.call_congr hk]
      exact hs.1 b
    · rw [ht]
      exact hs.2 c
  | tally c t h =>
    refine ⟨hs.1, fun d => ?_⟩
    rw [State.chan_setTallies]
    split
    · exact h (hs.2 c)
    · exact hs.2 d
  | ticked => exact ⟨hs.1, fun c => by cases c <;> exact hs.2 _⟩
  | fresh cause found =>
    refine ⟨fun b => ?_, fun c => ?_⟩
    · cases b <;> simp [State.cleared, State.call, PerBerth.same, PerBerth.get, Call.counts, Call.zeroed, Boarded.zero]
    · cases c <;> simp [State.cleared, State.chan, PerChan.of, PerChan.get, Tallies.counts, Channel.atStart,
        Tallies.zero]
  | opened b => exact countsBounded_setCall b hs fun _ => by simp [State.openedCall, Call.counts, Call.zeroed, Boarded.zero]
  | boarding b => exact countsBounded_setCall b hs id
  | lastCall b => exact countsBounded_setCall b hs id
  | ended b => exact countsBounded_setCall b hs id
  | collected b => exact countsBounded_setCall b hs fun _ => by simp [Call.counts, Call.zeroed, Boarded.zero]
  | adjusted b delta =>
    refine countsBounded_setCall b hs fun h => ?_
    split
    · exact Call.adjust_bounded _ delta h
    · exact Call.adjust_bounded _ delta h
  | fare k => exact countsBounded_setCall k.berth hs id
  | alighted b => 
    refine countsBounded_setCall b hs fun h => ?_
    simp only [Call.counts, List.forall_mem_cons] at h ⊢
    obtain ⟨h1, h2, h3, h4, h5, h6, h7, h8⟩ := h
    exact ⟨h1, h2, h3, h4, h5, h6, bump_le _, h8⟩
  | excess b => 
    refine countsBounded_setCall b hs fun h => ?_
    simp only [Call.counts, List.forall_mem_cons] at h ⊢
    obtain ⟨h1, h2, h3, h4, h5, h6, h7, _, h9⟩ := h
    exact ⟨h1, h2, h3, h4, h5, h6, h7, bump_le _, h9⟩
  | unpaid b => 
    refine countsBounded_setCall b hs fun h => ?_
    simp only [Call.counts, Call.markedAt, List.forall_mem_cons] at h ⊢
    obtain ⟨h1, h2, h3, h4, h5, _, h7⟩ := h
    exact ⟨h1, h2, h3, h4, h5, bump_le _, h7⟩
  | passed c b k => exact countsBounded_setCall b hs (Call.count_bounded _ k.kind)
  | forced c b => exact countsBounded_setCall (s := s) b hs id
  | _ => exact hs

/-! ### Calls -/

theorem Boarded.sum_le_count (k : Boarded) (kind : ClaimKind) (h : ∀ n ∈ [k.paid, k.free, k.account, k.allotment,
    k.staff], n ≤ Config.countMax) : k.sum ≤ (k.count kind).sum ∧ (k.count kind).sum ≤ k.sum + 1 := by
  have le : ∀ n, n ≤ Config.countMax → n ≤ bump n ∧ bump n ≤ n + 1 := fun n hn => ⟨le_bump hn, Nat.min_le_left _ _⟩
  simp only [List.forall_mem_cons] at h
  obtain ⟨h1, h2, h3, h4, h5, -⟩ := h
  have := le _ h1
  have := le _ h2
  have := le _ h3
  have := le _ h4
  have := le _ h5
  cases kind <;> simp only [Boarded.count, Boarded.sum] <;> omega

/-- A condition of each berth's record survives a record put in place that meets it. -/
theorem forall_call_setCall {P : Berth → Call → Prop} (b : Berth) {k : Call} (hs : ∀ d, P d (s.call d))
    (hk : P b (s.call b) → P b k) : ∀ d, P d ((s.setCall b k).call d) := by
  intro d
  rw [State.call_setCall]
  split
  · next h =>
    rw [h]
    exact hk (hs b)
  · exact hs d

/-- Alightings within what was aboard stay so, while the counts lie within their saturation (R25). -/
theorem Change.aboardCounted (h : Change o entry s t) (hc : CountsBounded s) (hs : AboardCounted s) :
    AboardCounted t := by
  have put : ∀ (b : Berth) (k : Call), ((s.call b).alighted ≤ (s.call b).declared + (s.call b).boarded.sum →
      k.alighted ≤ k.declared + k.boarded.sum) → AboardCounted (s.setCall b k) := fun b k hk =>
    forall_call_setCall (P := fun _ k => k.alighted ≤ k.declared + k.boarded.sum) b hs hk
  cases h with
  | same h =>
    have hk : t.calls = s.calls := congrArg Ledger.calls h
    intro b
    rw [State.call_congr hk]
    exact hs b
  | fresh cause found => exact fun b => by cases b <;> exact Nat.zero_le _
  | opened b => exact put b _ fun _ => Nat.zero_le _
  | boarding b => exact put b _ id
  | lastCall b => exact put b _ id
  | ended b => exact put b _ id
  | collected b => exact put b _ fun _ => Nat.le_refl _
  | adjusted b delta =>
    refine put b _ fun _ => ?_
    split <;> exact Nat.min_le_right _ _
  | fare k => exact put k.berth _ id
  | alighted b _ hb => exact put b _ fun _ => (Nat.min_le_left _ _).trans hb
  | excess b => exact put b _ id
  | unpaid b =>
    refine put b _ fun h => h.trans (Nat.add_le_add_left ?_ _)
    have hu := le_bump (hc.1 b (s.call b).boarded.unpaid (by simp [Call.counts]))
    simp only [Call.markedAt, Boarded.sum]
    omega
  | passed c b k =>
    refine put b _ fun h => h.trans (Nat.add_le_add_left (Boarded.sum_le_count _ k.kind ?_).1 _)
    exact fun n hn => hc.1 b n (List.mem_append_left [_, _, _] hn)
  | forced c b => exact put b _ id
  | _ => exact hs

/-- The dwell timer runs in BOARDING and the last-call timer in LAST_CALL: what that says of one record. -/
def CallTimers.Follow (t : CallTimers) (st : CallState) : Prop :=
  (t.dwell.isSome = true ↔ st = .boarding) ∧ (t.lastCall.isSome = true ↔ st = .lastCall)

/-- Timers that follow a state in which none runs follow every such state. -/
theorem CallTimers.Follow.idle {t : CallTimers} {st st' : CallState} (h : t.Follow st)
    (hst : st.isBoarding = false) (hst' : st'.isBoarding = false) : t.Follow st' := by
  have idle : ∀ {x : CallState}, x.isBoarding = false → x ≠ .boarding ∧ x ≠ .lastCall := by
    intro x hx
    cases x <;> simp_all [CallState.isBoarding]
  exact ⟨iff_of_false ((idle hst).1 ∘ h.1.mp) (idle hst').1, iff_of_false ((idle hst).2 ∘ h.2.mp) (idle hst').2⟩

theorem CallTimers.later_follow {t : CallTimers} {st : CallState} (h : t.Follow st) : t.later.Follow st := by
  simpa [CallTimers.Follow, CallTimers.later, countDown] using h

theorem Change.timersFollowCalls (h : Change o entry s t) (hs : TimersFollowCalls s) : TimersFollowCalls t := by
  have put : ∀ (b : Berth) (k : Call), ((s.timersOf b).Follow (s.call b).state → (s.timersOf b).Follow k.state) →
      TimersFollowCalls (s.setCall b k) := fun b k hk =>
    forall_call_setCall (P := fun d k => (s.timersOf d).Follow k.state) b hs hk
  have both : ∀ (b : Berth) (k : Call) (x : CallTimers), x.Follow k.state →
      TimersFollowCalls ((s.setCall b k).setTimers b x) := by
    intro b k x hk d
    rw [State.timersOf_setTimers, show ((s.setCall b k).setTimers b x).call d = (s.setCall b k).call d from rfl,
      State.call_setCall]
    split
    · exact hk
    · exact hs d
  cases h with
  | same h =>
    have hk : t.calls = s.calls := congrArg Ledger.calls h
    have ht : t.callTimers = s.callTimers := congrArg Ledger.callTimers h
    intro b
    rw [State.call_congr hk, State.timersOf, ht]
    exact hs b
  | ticked =>
    intro b
    cases b with
    | b0 => exact CallTimers.later_follow (hs .b0)
    | b1 => exact CallTimers.later_follow (hs .b1)
  | fresh cause found =>
    exact fun b => by cases b <;> exact ⟨iff_of_false nofun nofun, iff_of_false nofun nofun⟩
  | opened b _ _ _ _ _ hv hk =>
    refine put b _ (·.idle ?_ rfl)
    rw [State.call_congr hk, hv]
    rfl
  | boarding b at_ dwell hst =>
    have idle := (hs b).2
    rw [hst] at idle
    exact both b _ _ ⟨iff_of_true rfl rfl, idle.trans (iff_of_false nofun nofun)⟩
  | lastCall b at_ limit => exact both b _ _ ⟨iff_of_false nofun nofun, iff_of_true rfl rfl⟩
  | ended b => exact both b _ _ ⟨iff_of_false nofun nofun, iff_of_false nofun nofun⟩
  | collected b hst => exact put b _ (·.idle (by rw [hst]; rfl) rfl)
  | adjusted b delta =>
    refine put b _ fun h => ?_
    split <;> exact h
  | fare k => exact put k.berth _ id
  | alighted b => exact put b _ id
  | excess b => exact put b _ id
  | unpaid b => exact put b _ id
  | passed c b k => exact put b _ id
  | forced c b => exact put b _ id
  | _ => exact hs

/-- The record of a berth on which a claim stands is no VACANT one (R31). -/
theorem not_vacant_of_claim (h : ClaimsOnBoarding o) {k : Claim} (hk : ∃ c, k ∈ (o.claimsOf c).every) :
    (o.call k.berth).state ≠ .vacant := by
  obtain ⟨c, hc⟩ := hk
  intro hv
  have := (h c k hc).2
  rw [hv] at this
  cases this

theorem Change.vacantZeroed (ho : ClaimsOnBoarding o) (h : Change o entry s t) (hs : VacantZeroed s) :
    VacantZeroed t := by
  have put : ∀ (b : Berth) (k : Call), (k.state = .vacant → k = .zeroed) → VacantZeroed (s.setCall b k) :=
    fun b k hk => forall_call_setCall (P := fun _ k => k.state = .vacant → k = .zeroed) b hs fun _ => hk
  have isOpen : ∀ {b : Berth} {k : Call}, (s.call b).state.isOpen = true → k.state = (s.call b).state →
      k.state = .vacant → k = .zeroed := by
    intro b k ho hst hv
    rw [← hst, hv] at ho
    cases ho
  cases h with
  | same h =>
    have hk : t.calls = s.calls := congrArg Ledger.calls h
    intro b
    rw [State.call_congr hk]
    exact hs b
  | fresh cause found => exact fun b _ => by cases b <;> rfl
  | opened b => exact put b _ nofun
  | boarding b => exact put b _ nofun
  | lastCall b => exact put b _ nofun
  | ended b => exact put b _ nofun
  | collected b => exact put b _ fun _ => rfl
  | adjusted b delta hst => exact put b _ (isOpen hst (by split <;> rfl))
  | fare k _ _ hk hc =>
    refine put k.berth _ fun hv => absurd ?_ (not_vacant_of_claim ho hk)
    rw [State.call_congr hc] at hv
    exact hv
  | alighted b hst => exact put b _ (isOpen hst rfl)
  | excess b hst => exact put b _ (isOpen hst rfl)
  | unpaid b hst => exact put b _ (isOpen hst rfl)
  | passed c b k _ _ _ _ _ hst => exact put b _ (isOpen hst rfl)
  | forced c b _ _ hst => exact put b _ (isOpen hst rfl)
  | _ => exact hs

/-- Within an event a call is opened only while egress is inactive, and egress becomes active only by an
entry to it. -/
def OpensOutsideEgress (o : State) (entry : Prop) (s : State) : Prop :=
  (∀ b, (s.call b).state.isOpen = true → (o.call b).state.isOpen = true ∨ o.egress.active = false) ∧
  (s.egress.active = true → o.egress.active = true ∨ entry)

theorem Change.opensOutsideEgress (h : Change o entry s t) (hs : OpensOutsideEgress o entry s) :
    OpensOutsideEgress o entry t := by
  obtain ⟨hcall, hegress⟩ := hs
  have put : ∀ (b : Berth) (k : Call), (k.state.isOpen = true → (s.call b).state.isOpen = true) →
      ∀ d, ((s.setCall b k).call d).state.isOpen = true →
        (o.call d).state.isOpen = true ∨ o.egress.active = false := fun b k hk =>
    forall_call_setCall (P := fun d k => k.state.isOpen = true →
      (o.call d).state.isOpen = true ∨ o.egress.active = false) b hcall fun h hko => h (hk hko)
  cases h with
  | same h =>
    have hk : t.calls = s.calls := congrArg Ledger.calls h
    have he : t.egress.active = s.egress.active := congrArg Ledger.egressActive h
    refine ⟨fun b => ?_, he ▸ hegress⟩
    rw [State.call_congr hk]
    exact hcall b
  | egress e he => exact ⟨hcall, fun h => (he h).elim hegress .inr⟩
  | fresh cause found => exact ⟨fun b hb => (by cases b <;> cases hb), nofun⟩
  | opened b _ _ _ _ _ _ _ _ he => exact ⟨fun _ _ => .inr he, hegress⟩
  | boarding b _ _ hst => exact ⟨put b _ fun _ => by rw [hst]; rfl, hegress⟩
  | lastCall b _ _ hst => exact ⟨put b _ fun _ => by rw [hst]; rfl, hegress⟩
  | ended b => exact ⟨put b _ nofun, hegress⟩
  | collected b => exact ⟨put b _ nofun, hegress⟩
  | adjusted b _ hst => exact ⟨put b _ fun _ => hst, hegress⟩
  | fare k => exact ⟨put k.berth _ id, hegress⟩
  | alighted b => exact ⟨put b _ id, hegress⟩
  | excess b => exact ⟨put b _ id, hegress⟩
  | unpaid b => exact ⟨put b _ id, hegress⟩
  | passed c b => exact ⟨put b _ id, hegress⟩
  | forced c b => exact ⟨put b _ id, hegress⟩
  | _ => exact ⟨hcall, hegress⟩

/-- While egress is active no call is open, before an event and so after it (R24, R165). -/
theorem Moves.egressEndsCalls {o t : State} (h : Moves o t) (ho : EgressEndsCalls o) : EgressEndsCalls t := by
  obtain ⟨entry, hchain, hend⟩ := h
  obtain ⟨hcall, hegress⟩ := hchain.keeps (fun _ _ => Change.opensOutsideEgress)
    (⟨fun _ => .inl, .inl⟩ : OpensOutsideEgress o entry o)
  intro hact b
  rcases hegress hact with hact | hentry
  · by_contra hopen
    rcases hcall b (Bool.not_eq_false _ ▸ hopen) with h | h
    · rw [ho hact b] at h
      cases h
    · rw [hact] at h
      cases h
  · exact hend hentry b

/-! ### The over-capacity mark -/

/-- The seats held on a berth after a channel's claims are replaced. -/
theorem State.held_setClaims (s : State) (c : Chan) (k : ChannelClaims) (b : Berth) :
    (s.setClaims c k).held b + (s.claimsOf c).heldOn b = s.held b + k.heldOn b := by
  simp only [State.held, State.claimsOf_setClaims]
  cases c <;> simp <;> omega

/-- What the mark says of one record with the seats held on it (R28). -/
def Call.Marked (k : Call) (held : Nat) : Prop :=
  k.state.isOpen = true → k.capacity < k.aboard + held → k.overCapacity = true

theorem overCapacityMarked_iff : OverCapacityMarked s ↔ ∀ b, (s.call b).Marked (s.held b) := by
  unfold OverCapacityMarked Call.Marked State.overFull State.aboard
  simp

theorem Call.markedAt_marked (k : Call) (held : Nat) : (k.markedAt held).Marked held := by
  intro _ hover
  have hover : k.capacity < k.aboard + held := hover
  simp [Call.markedAt, hover]

/-- A record that holds no more than before stays as well marked. -/
theorem Call.Marked.mono {k m : Call} {held held' : Nat} (h : k.Marked held)
    (hst : m.state.isOpen = true → k.state.isOpen = true) (hcap : m.capacity = k.capacity)
    (hheld : m.aboard + held' ≤ k.aboard + held) (hmark : m.overCapacity = k.overCapacity) :
    m.Marked held' := by
  intro ho hover
  rw [hmark]
  exact h (hst ho) (by omega)

/-- A lower declared figure leaves no more passengers aboard (R29). -/
theorem Call.adjust_aboard_le (k : Call) {delta : Int} (h : ¬0 < delta) :
    (k.adjust delta).aboard ≤ k.aboard := by
  simp only [Call.adjust, Call.aboard]
  omega

/-- The seats of a live queue fall by the one that its head passes (R44). -/
theorem heldIn_passed (b d : Berth) (k : Claim) (ks : List Claim) (window : Nat) (hb : k.berth = b)
    (hk : k.passed < k.granted) :
    heldIn d (if k.passed + 1 < k.granted then { k with passed := k.passed + 1, window := window } :: ks
      else promote window ks) + (if d = b then 1 else 0) = heldIn d (k :: ks) := by
  have hp : heldIn d (promote window ks) = heldIn d ks := by cases ks <;> rfl
  subst hb
  by_cases hd : d = k.berth
  · subst hd
    split <;> simp only [heldIn, hp, if_pos, Claim.unpassed] <;> omega
  · have hd' : ¬k.berth = d := fun e => hd e.symm
    split <;> simp [heldIn, hp, hd']

/-- A boarding that takes the seat it was granted leaves every record as well marked (R44). -/
theorem passed_marked {c : Chan} {b : Berth} {k : Call} {x : ChannelClaims}
    (hs : ∀ d, (s.call d).Marked (s.held d)) (hst : k.state = (s.call b).state)
    (hcap : k.capacity = (s.call b).capacity) (hmark : k.overCapacity = (s.call b).overCapacity)
    (haboard : k.aboard ≤ (s.call b).aboard + 1)
    (hx : ∀ d, x.heldOn d + (if d = b then 1 else 0) = (s.claimsOf c).heldOn d) :
    ∀ d, (((s.setCall b k).setClaims c x).call d).Marked (((s.setCall b k).setClaims c x).held d) := by
  intro d
  have hheld := State.held_setClaims (s.setCall b k) c x d
  have hold := hx d
  change _ + (s.claimsOf c).heldOn d = s.held d + _ at hheld
  change ((s.setCall b k).call d).Marked _
  rw [State.call_setCall]
  split at hold
  · next hd =>
    subst hd
    rw [if_pos rfl]
    exact (hs d).mono (fun h => hst ▸ h) hcap (by omega) hmark
  · next hd =>
    rw [if_neg hd]
    exact (hs d).mono id rfl (by omega) rfl

theorem Change.overCapacityMarked (ho : ClaimsOnBoarding o) (hu : ClaimsUnpassed o) (h : Change o entry s t)
    (hc : CountsBounded s) (hs : OverCapacityMarked s) : OverCapacityMarked t := by
  rw [overCapacityMarked_iff] at hs ⊢
  have put : ∀ (b : Berth) (k : Call), ((s.call b).Marked (s.held b) → k.Marked (s.held b)) →
      ∀ d, ((s.setCall b k).call d).Marked ((s.setCall b k).held d) := fun b k hk =>
    forall_call_setCall (P := fun d k => k.Marked (s.held d)) b hs hk
  cases h with
  | same h =>
    have hk : t.calls = s.calls := congrArg Ledger.calls h
    have hcl : t.claims = s.claims := congrArg Ledger.claims h
    intro b
    rw [State.call_congr hk, State.held_congr hcl]
    exact hs b
  | ticked =>
    intro b
    have window : ∀ ks, heldIn b (windowLater ks) = heldIn b ks := fun ks => by cases ks <;> rfl
    have hheld : s.tick.held b = s.held b := by
      have one : ∀ c, (s.claimsLater c).heldOn b = (s.claimsOf c).heldOn b := by
        intro c
        unfold State.claimsLater
        split
        · rfl
        · exact congrArg (· + _) (window _)
      simp only [State.held, ← one]
      rfl
    rw [hheld]
    exact hs b
  | fresh cause found => exact fun b => by cases b <;> exact nofun
  | opened b vessel line capacity declared dwell hv hk hcl =>
    refine put b _ fun _ _ hover => ?_
    have none : s.held b = 0 := by
      rw [State.held_congr hcl]
      have noClaim : ∀ (c : Chan) (l : List Claim), (∀ k ∈ l, k ∈ (o.claimsOf c).every) → heldIn b l = 0 := by
        intro c l
        induction l with
        | nil => exact fun _ => rfl
        | cons k ks ih =>
          intro hmem
          have hb : k.berth ≠ b := by
            rintro rfl
            exact not_vacant_of_claim ho ⟨c, hmem k List.mem_cons_self⟩ hv
          rw [heldIn, if_neg hb, ih fun x hx => hmem x (List.mem_cons_of_mem _ hx)]
      have all : ∀ c, (o.claimsOf c).heldOn b = 0 := by
        intro c
        rw [ChannelClaims.heldOn, noClaim c _ fun _ => List.mem_append_left _,
          noClaim c _ fun _ => List.mem_append_right _]
      simp [State.held, all]
    rw [none] at hover
    have hover : capacity < declared + 0 - 0 + 0 := hover
    exact decide_eq_true hover
  | boarding b _ _ hst => exact put b _ fun h => h.mono (fun _ => by rw [hst]; rfl) rfl (Nat.le_refl _) rfl
  | lastCall b _ _ hst => exact put b _ fun h => h.mono (fun _ => by rw [hst]; rfl) rfl (Nat.le_refl _) rfl
  | ended b => exact put b _ fun _ => nofun
  | collected b => exact put b _ fun _ => nofun
  | adjusted b delta =>
    refine put b _ fun h => ?_
    split
    · exact Call.markedAt_marked _ _
    · next hd => exact h.mono id rfl (Nat.add_le_add_right (Call.adjust_aboard_le _ hd) _) rfl
  | fare k => exact put k.berth _ id
  | alighted b =>
    refine put b _ fun h => h.mono id rfl (Nat.add_le_add_right (Nat.sub_le_sub_left ?_ _) _) rfl
    exact le_bump (hc.1 b _ (by simp [Call.counts]))
  | excess b => exact put b _ id
  | unpaid b => exact put b _ fun _ => Call.markedAt_marked _ _
  | passed c b k ks window hk hcl hb hst hlive =>
    have hmem : k ∈ (o.claimsOf c).every := by
      rw [ChannelClaims.every, show o.claimsOf c = s.claimsOf c from (congrArg (·.get c) hcl).symm, hlive]
      exact List.mem_append_left _ List.mem_cons_self
    have hkb : k.berth = b := Option.some.inj ((ho c k hmem).1.symm.trans hb)
    refine passed_marked hs rfl rfl rfl ?_ fun d => ?_
    · have hsum := (Boarded.sum_le_count (s.call b).boarded k.kind fun n hn =>
        hc.1 b n (List.mem_append_left [_, _, _] hn)).2
      simp only [Call.aboard]
      omega
    · have hone := heldIn_passed b d k ks window hkb (hu.1 c k hmem)
      simp only [ChannelClaims.heldOn, hlive]
      omega
  | released c k hle =>
    intro b
    have hheld := State.held_setClaims s c k b
    have := hle b
    exact (hs b).mono id rfl (Nat.add_le_add_left (by omega) _) rfl
  | granted c b k n hn hroom =>
    intro d
    have hheld := State.held_setClaims s c k d
    rw [hn d] at hheld
    split at hheld
    · next hd =>
      subst hd
      unfold State.headroom State.aboard at hroom
      intro hst hover
      change (s.call d).capacity < (s.call d).aboard + (s.setClaims c k).held d at hover
      exact hs d hst (by omega)
    · exact (hs d).mono id rfl (Nat.add_le_add_left (by omega) _) rfl
  | forced c b k n hst hn =>
    intro d
    have hheld := State.held_setClaims (s.setCall b ((s.call b).markedAt (s.held b + n))) c k d
    change _ + (s.claimsOf c).heldOn d = s.held d + _ at hheld
    rw [hn d] at hheld
    change ((s.setCall b _).call d).Marked _
    rw [State.call_setCall]
    split at hheld
    · next hd =>
      subst hd
      rw [if_pos rfl]
      exact (Call.markedAt_marked (s.call d) (s.held d + n)).mono id rfl (Nat.add_le_add_left (by omega) _) rfl
    · next hd =>
      rw [if_neg hd]
      exact (hs d).mono id rfl (Nat.add_le_add_left (by omega) _) rfl
  | _ => exact hs

end Sys2Proof.Machine
end

section
/-! For each operation of the model, the chain of elementary changes that it is. -/

namespace Sys2Proof.Machine.State

variable {o : State} {entry : Prop}

/-- An operation that leaves the ledger alone is a chain. -/
theorem chain_same {s t : State} (h : t.ledger = s.ledger) : Chain o entry s t := .single (.same h)

theorem foldl_chain {α : Type} (f : State → α → State) (hf : ∀ s x, Chain o entry s (f s x)) (xs : List α)
    (s : State) : Chain o entry s (xs.foldl f s) := by
  induction xs generalizing s with
  | nil => exact .refl
  | cons x xs ih => exact (hf s x).trans (ih _)

/-! ### Notices -/

theorem queue_chain (s : State) (n : Notice) : Chain o entry s (s.queue n) := by
  rw [queue_eq]
  exact .single (.notice s n)

theorem queueAll_chain (s : State) (ns : List Notice) : Chain o entry s (s.queueAll ns) :=
  foldl_chain queue queue_chain ns s

theorem queueIf_chain (s : State) (p : Bool) (n : Notice) : Chain o entry s (s.queueIf p n) := by
  unfold queueIf
  split
  · exact queue_chain s n
  · exact .refl

theorem queueHeadroom_chain (before s : State) (b : Berth) : Chain o entry s (queueHeadroom before s b) := by
  unfold queueHeadroom
  split
  · exact queue_chain s _
  · exact .refl

/-! ### Reader lines -/

/-- A channel replaced with its tallies as they were leaves the ledger alone. -/
theorem setChan_ledger (s : State) (c : Chan) (k : Channel) (h : k.tallies = (s.chan c).tallies) :
    (s.setChan c k).ledger = s.ledger := by
  have ht : (PerChan.of fun d => ((s.setChan c k).chan d).tallies) = .of fun d => (s.chan d).tallies := by
    refine PerChan.ext_get fun d => ?_
    simp only [PerChan.get_of, chan_setChan]
    split
    · next hd => rw [h, hd]
    · rfl
  unfold ledger
  rw [ht]
  rfl

theorem setChan_chain (s : State) (c : Chan) (k : Channel) (h : k.tallies = (s.chan c).tallies) :
    Chain o entry s (s.setChan c k) := chain_same (setChan_ledger s c k h)

theorem startRecord_chain (s : State) (c : Chan) (r : ReaderRecord) : Chain o entry s (s.startRecord c r) := by
  have sent : Chain o entry s (s.setPort c { s.port c with sending := some r }) := chain_same rfl
  unfold startRecord
  cases r with
  | verdict v =>
    dsimp only
    split
    · refine sent.trans (.single (.tally _ c _ ?_))
      intro h
      simp only [Tallies.counts, List.forall_mem_cons] at h ⊢
      obtain ⟨h1, h2, h3, h4, h5, h6, h7, -, h9⟩ := h
      exact ⟨h1, h2, h3, h4, h5, h6, h7, bump_le _, h9⟩
    · exact sent
  | setup _ _ _ => exact sent
  | mode _ => exact sent

theorem sendRecord_chain (s : State) (c : Chan) (r : ReaderRecord) : Chain o entry s (s.sendRecord c r) := by
  unfold sendRecord
  split
  · exact startRecord_chain s c r
  · exact chain_same rfl

theorem deliver_chain (s : State) (c : Chan) (v : Verdict) : Chain o entry s (s.deliver c v) := by
  unfold deliver
  split
  · exact .refl
  · exact (sendRecord_chain _ c _).after (chain_same rfl)

theorem refusePending_chain (s : State) (c : Chan) (code : VerdictCode) :
    Chain o entry s (s.refusePending c code) := by
  unfold refusePending
  split
  · exact .refl
  · exact (deliver_chain _ c _).after (chain_same rfl)

theorem refuseDesk_chain (s : State) (code : VerdictCode) : Chain o entry s (s.refuseDesk code) := by
  unfold refuseDesk
  split
  · exact .refl
  · exact (queue_chain _ _).after (chain_same rfl)

theorem sendSetup_chain (s : State) (c : Chan) : Chain o entry s (s.sendSetup c) :=
  (sendRecord_chain _ c _).after (setChan_chain s c _ rfl)

/-! ### How an event ends -/

theorem settleChannel_chain (s : State) (c : Chan) : Chain o entry s (s.settleChannel c) := by
  have taken : Chain o entry s (s.takeState c) := setChan_chain s c _ rfl
  have reported : ∀ u v : State, Chain o entry v (reportState u v c) := by
    intro u v
    unfold reportState
    dsimp only
    split
    · exact queue_chain v _
    · exact .refl
  have told : ∀ u v : State, Chain o entry v (tellArbiter u v c) := by
    intro u v
    unfold tellArbiter
    split
    · exact .refl
    · split
      · exact .refl
      · exact refusePending_chain v c _
  have shown : ∀ v : State, Chain o entry v (v.showMode c) := by
    intro v
    unfold showMode
    dsimp only
    split
    · exact (sendRecord_chain _ c _).after (setChan_chain v c _ rfl)
    · exact .refl
  exact ((taken.trans (reported _ _)).trans (told _ _)).trans (shown _)

theorem settleChannels_chain (s : State) : Chain o entry s s.settleChannels :=
  (((settleChannel_chain s .c0).trans (settleChannel_chain _ .c1)).trans
    (settleChannel_chain _ .c2)).trans (settleChannel_chain _ .c3)

theorem settle_chain (before s : State) (after : List Notice) : Chain o entry s (settle before s after) :=
  (((queueHeadroom_chain before s .b0).trans (queueHeadroom_chain before _ .b1)).trans
    (queueAll_chain _ after)).trans (settleChannels_chain _)

theorem select_chain (s : State) : Chain o entry s s.select := by
  have handed : ∀ q, Chain o entry s (s.handOver q) := by
    intro q
    cases q with
    | channel c =>
      unfold handOver
      dsimp only
      split
      · exact .refl
      · next p hp =>
        have tallied : Chain o entry s (s.setTallies c
            { (s.chan c).tallies with taken := bump (s.chan c).tallies.taken }) := by
          refine .single (.tally s c _ fun h => ?_)
          simp only [Tallies.counts, List.forall_mem_cons] at h ⊢
          obtain ⟨h1, h2, h3, h4, h5, h6, -, h8⟩ := h
          exact ⟨h1, h2, h3, h4, h5, h6, bump_le _, h8⟩
        exact tallied.trans (chain_same rfl)
    | desk line =>
      unfold handOver
      dsimp only
      split
      · exact .refl
      · exact chain_same rfl
  unfold select
  split
  · exact .refl
  · split
    · exact .refl
    · exact handed _

/-! ### The journey list -/

theorem modifyLast_length {α : Type} (p : α → Bool) (f : α → α) (l : List α) :
    (modifyLast p f l).length = l.length := by
  induction l with
  | nil => rfl
  | cons x xs ih =>
    unfold modifyLast
    split
    · simp [ih]
    · split <;> rfl

theorem modifyJourney_chain (s : State) (p : JourneyEntry → Bool) (f : JourneyEntry → JourneyEntry) :
    Chain o entry s (s.setJourney (modifyLast p f s.engine.journey)) :=
  .single (.journey s _ (.inl (Nat.le_of_eq (modifyLast_length p f _))))

theorem writeJourney_chain (s : State) (e : JourneyEntry) : Chain o entry s (s.writeJourney e) := by
  refine .single (.journey s _ ?_)
  split
  · right
    simp only [List.length_append, List.length_singleton]
    omega
  · left
    simp only [List.length_append, List.length_drop, List.length_singleton]
    have : Config.journeySize = 256 := rfl
    omega

theorem recordWrite_chain (s : State) (c : Chan) (k : Claim) (tag : Nat) (out : JourneyOutcome) :
    Chain o entry s (s.recordWrite c k tag out) := by
  unfold recordWrite
  split
  · exact .refl
  · exact writeJourney_chain s _

theorem recordLapse_chain (s : State) (k : Claim) : Chain o entry s (s.recordLapse k) := by
  unfold recordLapse
  split
  · exact .refl
  · exact modifyJourney_chain s _ _

theorem recordPassed_chain (s : State) (k : Claim) : Chain o entry s (s.recordPassed k) := by
  unfold recordPassed
  split
  · exact .refl
  · exact modifyJourney_chain s _ _

/-! ### The claim table -/

theorem modClaimAllot_ledger (s : State) (k : Claim) (f : Allotment → Allotment) :
    (s.modClaimAllot k f).ledger = s.ledger := by
  obtain ⟨l, h⟩ := modClaimAllot_frame s k f
  rw [h]
  rfl

theorem returnSeats_chain (s : State) (k : Claim) : Chain o entry s (s.returnSeats k) :=
  chain_same (modClaimAllot_ledger s k _)

theorem lapseEffects_chain (s : State) (k : Claim) : Chain o entry s (s.lapseEffects k) :=
  (returnSeats_chain s k).trans (recordLapse_chain _ k)

theorem unknownEffects_chain (s : State) (c : Chan) (k : Claim) : Chain o entry s (s.unknownEffects c k) := by
  unfold unknownEffects
  split
  · exact returnSeats_chain s k
  · exact (returnSeats_chain s k).trans (recordWrite_chain _ c k _ _)

theorem heldIn_filter_le (b : Berth) (p : Claim → Bool) (ks : List Claim) :
    heldIn b (ks.filter p) ≤ heldIn b ks := by
  induction ks with
  | nil => exact Nat.le_refl _
  | cons k ks ih =>
    rw [List.filter_cons]
    split
    · exact Nat.add_le_add_left ih _
    · exact ih.trans (Nat.le_add_left _ _)

theorem heldIn_promote (b : Berth) (window : Nat) (ks : List Claim) :
    heldIn b (promote window ks) = heldIn b ks := by
  cases ks <;> rfl

theorem heldIn_append (b : Berth) (ks ls : List Claim) : heldIn b (ks ++ ls) = heldIn b ks + heldIn b ls := by
  induction ks with
  | nil => simp [heldIn]
  | cons k ks ih => simp only [List.cons_append, heldIn, ih, Nat.add_assoc]

theorem heldIn_joinLive (b : Berth) (window : Nat) (ks : List Claim) (k : Claim) :
    heldIn b (joinLive window ks k) = heldIn b ks + heldIn b [k] := by
  cases ks with
  | nil => exact (Nat.zero_add _).symm
  | cons x xs => exact heldIn_append b (x :: xs) _

theorem heldIn_takeTag {tag : Nat} {ks rest : List Claim} {k : Claim} (h : takeTag tag ks = some (k, rest))
    (b : Berth) : heldIn b ks = heldIn b [k] + heldIn b rest := by
  induction ks generalizing rest with
  | nil => cases h
  | cons x xs ih =>
    unfold takeTag at h
    split at h
    · cases h
      rfl
    · obtain ⟨⟨y, ys⟩, hy, he⟩ := Option.map_eq_some_iff.mp h
      cases he
      simp only [heldIn, ih hy]
      omega

theorem mem_of_takeTag {tag : Nat} {ks rest : List Claim} {k : Claim} (h : takeTag tag ks = some (k, rest)) :
    k ∈ ks := by
  induction ks generalizing rest with
  | nil => cases h
  | cons x xs ih =>
    unfold takeTag at h
    split at h
    · cases h
      exact List.mem_cons_self
    · obtain ⟨⟨y, ys⟩, hy, he⟩ := Option.map_eq_some_iff.mp h
      cases he
      exact List.mem_cons_of_mem _ (ih hy)

theorem lapseHead_chain (s : State) (c : Chan) : Chain o entry s (s.lapseHead c) := by
  unfold lapseHead
  split
  · exact .refl
  · next k ks hlive =>
    refine (lapseEffects_chain _ k).after (.single (.released s c _ fun b => ?_))
    simp only [ChannelClaims.heldOn, hlive, heldIn_promote, heldIn]
    omega

theorem writeDone_chain (s : State) (c : Chan) (tag : Nat) (hk : s.calls = o.calls) (hcl : s.claims = o.claims) :
    Chain o entry s (s.writeDone c tag) := by
  unfold writeDone
  split
  · exact .refl
  · next k rest htake =>
    have mem : ∃ d, k ∈ (o.claimsOf d).every :=
      ⟨c, by rw [claimsOf, ← hcl]; exact List.mem_append_right _ (mem_of_takeTag htake)⟩
    have moved : Chain o entry s (s.setClaims c ⟨joinLive (s.windowOf c) (s.claimsOf c).live k, rest⟩) := by
      refine .single (.released s c _ fun b => ?_)
      simp only [ChannelClaims.heldOn, heldIn_joinLive, heldIn_takeTag htake]
      omega
    have counted : ∀ t : State, t.calls = o.calls → Chain o entry t (t.countFare k) := by
      intro t ht
      unfold countFare
      dsimp only
      split
      · exact .single (.fare t k _ _ mem ht)
      · exact .single (.fare t k _ _ mem ht)
    exact (recordWrite_chain _ c k _ _).after ((counted (s.setClaims c _) hk).after moved)

theorem takeTag_released (s : State) (c : Chan) {tag : Nat} {k : Claim} {rest : List Claim}
    (h : takeTag tag (s.claimsOf c).provisional = some (k, rest)) :
    Chain o entry s (s.setClaims c { s.claimsOf c with provisional := rest }) := by
  refine .single (.released s c _ fun b => ?_)
  simp only [ChannelClaims.heldOn, heldIn_takeTag h]
  omega

theorem writeFailed_chain (s : State) (c : Chan) (tag : Nat) : Chain o entry s (s.writeFailed c tag) := by
  unfold writeFailed
  split
  · exact .refl
  · next k rest htake => exact (takeTag_released s c htake).trans (returnSeats_chain _ k)

theorem writeUnknown_chain (s : State) (c : Chan) (tag : Nat) : Chain o entry s (s.writeUnknown c tag) := by
  unfold writeUnknown
  split
  · exact .refl
  · next k rest htake => exact (takeTag_released s c htake).trans (unknownEffects_chain _ c k)

theorem endClaims_chain (s : State) (c : Chan) (p : Claim → Bool) : Chain o entry s (s.endClaims c p) := by
  refine (foldl_chain _ (fun t x => unknownEffects_chain t c x) _ _).after
    ((foldl_chain _ lapseEffects_chain _ _).after (.single (.released s c _ fun b => ?_)))
  exact Nat.add_le_add (heldIn_filter_le b _ _) (heldIn_filter_le b _ _)

theorem heldIn_singleton (b : Berth) (k : Claim) : heldIn b [k] = if b = k.berth then k.unpassed else 0 := by
  simp only [heldIn, eq_comm, Nat.add_zero]

/-- Where a claim is entered, its seats are held on its berth and no other. -/
theorem enterClaim_eq (s : State) (c : Chan) (k : Claim) : ∃ x : ChannelClaims,
    s.enterClaim c k = (s.setClaims c x).modClaimAllot k (Allotment.grant k.granted) ∧
    ∀ d, x.heldOn d = (s.claimsOf c).heldOn d + if d = k.berth then k.unpassed else 0 := by
  refine ⟨_, rfl, fun d => ?_⟩
  split
  · simp only [ChannelClaims.heldOn, heldIn_append, heldIn_singleton]
    omega
  · simp only [ChannelClaims.heldOn, heldIn_joinLive, heldIn_singleton]
    omega

/-- The seats granted to a request that is not forced are within the headroom (R33). -/
theorem seatsGranted_le {s : State} {b : Berth} {r : SeatRequest} {n : Nat} (hf : r.forced = false)
    (h : s.seatsGranted b r = some n) : n ≤ s.headroom b := by
  unfold seatsGranted at h
  split at h
  · cases h
    assumption
  · split at h
    · cases h
      exact Nat.le_refl _
    · rw [if_neg (by simp [hf])] at h
      cases h

theorem requestSeats_chain (s : State) (r : SeatRequest) (hf : r.forced = false) :
    Chain o entry s (s.requestSeats r).1 := by
  unfold requestSeats
  split
  · exact .refl
  · next b _ =>
    split
    · exact .refl
    · split
      · exact .refl
      · split
        · exact .refl
        · next n hn =>
          obtain ⟨x, he, hx⟩ := enterClaim_eq s r.channel (s.newClaim b r n)
          dsimp only
          rw [he]
          refine Chain.after (chain_same (modClaimAllot_ledger _ _ _)) ?_
          exact .single (.granted s r.channel b x n hx (seatsGranted_le hf hn))

end Sys2Proof.Machine.State
end

section
/-! The chains of elementary changes that the engine's, the call table's and the arbiter's operations are, and
what every command does to the ledger. -/

namespace Sys2Proof.Machine.State

variable {o : State} {entry : Prop}

/-! ### The arbiter and the engine -/

theorem arrive_chain (s : State) (c : Chan) (card : Card) : Chain o entry s (s.arrive c card) := by
  unfold arrive
  split
  · exact deliver_chain s c _
  · exact chain_same rfl

theorem arriveDesk_chain (s : State) (card : Card) (line : Nat) : Chain o entry s (s.arriveDesk card line) := by
  unfold arriveDesk
  dsimp only
  split
  · exact (refuseDesk_chain _ _).after (chain_same rfl)
  · split
    · exact (refuseDesk_chain _ _).after (chain_same rfl)
    · exact chain_same rfl

theorem refuseOfBerth_chain (s : State) (b : Berth) (code : VerdictCode) (p : Chan → Bool) :
    Chain o entry s (s.refuseOfBerth b code p) := by
  refine foldl_chain _ (fun t c => ?_) _ s
  split
  · exact refusePending_chain t c code
  · exact .refl

theorem refuseBySettings_chain (s : State) (old : Settings) : Chain o entry s (s.refuseBySettings old) := by
  have swept := foldl_chain (o := o) (entry := entry) (fun (t : State) (c : Chan) =>
    if t.cfg.level.get c = 0 && old.level.get c ≠ 0 then t.refusePending c .notServed
    else if (t.cfg.level.get c < old.level.get c || old.lastCallLevel < t.cfg.lastCallLevel) &&
        t.belowLastCall c then t.refusePending c .notBoarding
    else t) (fun t c => by
      split
      · exact refusePending_chain t c _
      · split
        · exact refusePending_chain t c _
        · exact .refl) Chan.all s
  unfold refuseBySettings
  dsimp only
  split
  · exact (refuseDesk_chain _ _).after swept
  · exact swept

theorem withdrawPresentation_chain (s : State) (c : Chan) : Chain o entry s (s.withdrawPresentation c) := by
  obtain ⟨p, a, w, x, y, h⟩ := withdrawPresentation_frame s c
  rw [h]
  exact chain_same rfl

theorem endWriteUnknown_chain (s : State) (c : Chan) : Chain o entry s (s.endWriteUnknown c) := by
  unfold endWriteUnknown
  split
  · exact .refl
  · exact (writeUnknown_chain _ c _).after (chain_same rfl)

theorem setSlot_chain (s : State) (i : Slot) (r : Option Referral) : Chain o entry s (s.setSlot i r) := by
  cases i <;> exact chain_same rfl

theorem refuseCase_chain (s : State) (c : Chan) (card : Card) (code : VerdictCode) :
    Chain o entry s (s.refuseCase c card code).state := deliver_chain s c (plainVerdict card code)

theorem stageTen_chain (s : State) (c : Chan) (card : Card) (clock : Option ClockTime) (t : Terms) :
    Chain o entry s (s.stageTen c card clock t).state := by
  unfold stageTen
  dsimp only
  generalize hdrawn : (if t.writes = true then s.drawTag.setNote c s.engine.nextTag t.charge else s) = drawn
  have hd : Chain o entry s drawn := by
    rw [← hdrawn]
    split
    · exact Chain.same (.single (.tag s)) rfl
    · exact .refl
  have held : Chain o entry s (drawn.requestSeats (seatRequest c card t s.engine.nextTag)).1 :=
    (requestSeats_chain drawn _ rfl).after hd
  split
  · next u _ heq =>
    rw [heq] at held
    refine (deliver_chain _ c _).after (Chain.after ?_ held)
    split
    · unfold readmit
      split
      · exact .refl
      · exact modifyJourney_chain u _ _
    · exact .refl
  all_goals
    next u heq =>
      rw [heq] at held
      exact (refuseCase_chain u c card _).after held

theorem acceptCase_chain (s : State) (c : Chan) (card : Card) (clock : Option ClockTime) (t : Terms) :
    Chain o entry s (s.acceptCase c card clock t).state := by
  unfold acceptCase
  split
  · exact refuseCase_chain s c card _
  · exact stageTen_chain s c card clock t

theorem fallback_chain (s : State) (c : Chan) (card : Card) (cause : Cause) (block : Nat) :
    Chain o entry s (s.fallback c card cause block).state := by
  unfold fallback
  split
  · exact refuseCase_chain s c card _
  · exact acceptCase_chain s c card _ _

theorem raise_chain (s : State) (i : Slot) (c : Chan) (b : Berth) (card : Card) (cause : Cause) (block : Nat) :
    Chain o entry s (s.raise i c b card cause block) :=
  (setSlot_chain _ i _).after (Chain.same (.single (.referralId s)) rfl)

theorem referCase_chain (s : State) (c : Chan) (card : Card) (cause : Cause) (block : Nat) :
    Chain o entry s (s.referCase c card cause block).1 := by
  unfold referCase
  split
  · split
    · exact fallback_chain s c card cause block
    · exact raise_chain s _ c _ card cause block
  · exact fallback_chain s c card cause block

theorem completeStages_chain (s : State) (c : Chan) (w : Work) : Chain o entry s (s.completeStages c w).1 := by
  unfold completeStages
  dsimp only
  generalize hnoted : (if (s.decideCard w.card w.snap (s.lineOf c)).2 = true then s.resolveNewest w.card.id else s) =
    noted
  have hn : Chain o entry s noted := by
    rw [← hnoted]
    split
    · exact modifyJourney_chain s _ _
    · exact .refl
  split
  · dsimp only
    exact (deliver_chain _ c _).after hn
  · dsimp only [denyWithBlock]
    exact (deliver_chain _ c _).after (Chain.after (.single (.tag noted)) hn)
  · exact (acceptCase_chain _ c w.card _ _).after hn
  · exact (referCase_chain _ c w.card _ _).after hn

theorem completeWork_chain (s : State) (w : Work) : Chain o entry s (s.completeWork w).1 := by
  have freed : Chain o entry s s.freeEngine := chain_same rfl
  unfold completeWork
  split
  · exact (queue_chain _ _).after (freed.same rfl)
  · split
    · exact freed
    · split
      · dsimp only
        exact (deliver_chain _ _ _).after freed
      · dsimp only
        exact (deliver_chain _ _ _).after freed
      · exact (completeStages_chain _ _ w).after freed

theorem resolveSlot_chain (s : State) (i : Slot) (code : VerdictCode) : Chain o entry s (s.resolveSlot i code) := by
  unfold resolveSlot
  split
  · exact .refl
  · exact (deliver_chain _ _ _).after (setSlot_chain s i none)

theorem resolveByFallback_chain (s : State) (i : Slot) : Chain o entry s (s.resolveByFallback i).1 := by
  unfold resolveByFallback
  split
  · exact .refl
  · exact (fallback_chain _ _ _ _ _).after (setSlot_chain s i none)

theorem answerReferral_chain (s : State) (i : Slot) (r : Referral) (v : AnswerVerdict) (fare extra : Nat) :
    Chain o entry s (s.answerReferral i r v fare extra).state := by
  have freed := setSlot_chain (o := o) (entry := entry) s i none
  unfold answerReferral
  dsimp only
  split
  · exact (refuseCase_chain _ _ _ _).after freed
  · exact (fallback_chain _ _ _ _ _).after freed
  · refine (acceptCase_chain _ _ _ _ _).after (Chain.after ?_ freed)
    split
    · exact chain_same rfl
    · exact .refl

/-! ### The call table -/

theorem recordEnd_chain (s : State) (b : Berth) (reason : EndReason) (cause : CallCause) :
    Chain o entry s (s.recordEnd b reason cause) := (queue_chain _ _).after (.single (.ended s b _ reason))

theorem markEnded_chain (s : State) (b : Berth) (reason : EndReason) :
    Chain o entry s (s.markEnded b reason) := by
  obtain ⟨w, h⟩ := markEnded_frame s b reason
  rw [h]
  exact chain_same rfl

theorem resolveSlotOfBerth_chain (s : State) (b : Berth) (i : Slot) (code : VerdictCode) :
    Chain o entry s (s.resolveSlotOfBerth b i code) := by
  unfold resolveSlotOfBerth
  split
  · exact .refl
  · split
    · exact resolveSlot_chain s i code
    · exact .refl

theorem endCall_chain (s : State) (b : Berth) (reason : EndReason) (cause : CallCause) :
    Chain o entry s (s.endCall b reason cause) := by
  have ended : ∀ t : State, Chain o entry t (t.endCallClaims b) :=
    foldl_chain _ (fun t c => endClaims_chain t c _) Chan.all
  exact (resolveSlotOfBerth_chain _ b .s1 _).after <| (resolveSlotOfBerth_chain _ b .s0 _).after <|
    (markEnded_chain _ b reason).after <| (refuseOfBerth_chain _ b _ _).after <|
    (ended _).after (recordEnd_chain s b reason cause)

theorem enterLastCall_chain (s : State) (b : Berth) (cause : CallCause) (h : (s.call b).state = .boarding) :
    Chain o entry s (s.enterLastCall b cause) :=
  (refuseOfBerth_chain _ b _ _).after <| (queue_chain _ _).after (.single (.lastCall s b _ _ h))

theorem endByEgress_chain (s : State) (b : Berth) : Chain o entry s (s.endByEgress b) := by
  unfold endByEgress
  split
  · exact endCall_chain s b _ _
  · exact .refl

theorem enterEgress_chain (s : State) (cause : EgressCause) (h : entry) : Chain o entry s (s.enterEgress cause) := by
  have started : Chain o entry s (s.startEgress cause) :=
    (queue_chain _ _).after (.single (.egress s _ fun _ => .inr h))
  exact (refuseDesk_chain _ _).after <| (resolveSlot_chain _ .s1 _).after <| (resolveSlot_chain _ .s0 _).after <|
    (endByEgress_chain _ .b1).after <| (endByEgress_chain _ .b0).after started

theorem leaveEgress_chain (s : State) : Chain o entry s s.leaveEgress :=
  (queue_chain _ _).after (.single (.egress s _ nofun))

/-! ### Entry to egress ends the calls -/

theorem recordEnd_calls (s : State) (b : Berth) (reason : EndReason) (cause : CallCause) :
    (s.recordEnd b reason cause).calls =
      s.calls.set b { s.call b with state := .ended, endReason := reason, endedAt := s.stamp } := by
  unfold recordEnd
  dsimp only
  obtain ⟨q, h⟩ := queueCallState_frame ((s.setCall b { s.call b with
    state := .ended, endReason := reason, endedAt := s.stamp }).setTimers b .stopped) b (s.call b).vessel
    (s.call b).state cause
  rw [h]
  rfl

theorem endCallClaims_calls (s : State) (b : Berth) : (s.endCallClaims b).calls = s.calls := by
  obtain ⟨_, _, _, h⟩ := endCallClaims_frame s b
  rw [h]

theorem refuseOfBerth_calls (s : State) (b : Berth) (code : VerdictCode) (p : Chan → Bool) :
    (s.refuseOfBerth b code p).calls = s.calls := by
  obtain ⟨_, _, _, h⟩ := refuseOfBerth_frame s b code p
  rw [h]

theorem markEnded_calls (s : State) (b : Berth) (reason : EndReason) :
    (s.markEnded b reason).calls = s.calls := by
  obtain ⟨_, h⟩ := markEnded_frame s b reason
  rw [h]

theorem resolveSlot_calls (s : State) (i : Slot) (code : VerdictCode) : (s.resolveSlot i code).calls = s.calls := by
  obtain ⟨_, _, _, _, h⟩ := resolveSlot_frame s i code
  rw [h]

theorem resolveSlotOfBerth_calls (s : State) (b : Berth) (i : Slot) (code : VerdictCode) :
    (s.resolveSlotOfBerth b i code).calls = s.calls := by
  obtain ⟨_, _, _, _, h⟩ := resolveSlotOfBerth_frame s b i code
  rw [h]

theorem refuseDesk_calls (s : State) (code : VerdictCode) : (s.refuseDesk code).calls = s.calls := by
  obtain ⟨_, _, h⟩ := refuseDesk_frame s code
  rw [h]

/-- The end of a call changes its record alone of the call table (R17). -/
theorem endCall_calls (s : State) (b : Berth) (reason : EndReason) (cause : CallCause) :
    (s.endCall b reason cause).calls =
      s.calls.set b { s.call b with state := .ended, endReason := reason, endedAt := s.stamp } := by
  simp only [endCall, resolveSlotOfBerth_calls, markEnded_calls, refuseOfBerth_calls, endCallClaims_calls,
    recordEnd_calls]

theorem endByEgress_call (s : State) (b d : Berth) : ((s.endByEgress b).call d).state.isOpen =
    (if d = b then false else (s.call d).state.isOpen) := by
  unfold endByEgress
  split
  · have h := endCall_calls s b .egress .egress
    rw [call, h, PerBerth.get_set]
    split <;> rfl
  · next hopen =>
    split
    · next hd => simpa [hd] using hopen
    · rfl

/-- After entry to egress no call is open (R24, R165). -/
theorem enterEgress_closed (s : State) (cause : EgressCause) (b : Berth) :
    ((s.enterEgress cause).call b).state.isOpen = false := by
  unfold enterEgress
  dsimp only
  rw [call_congr (refuseDesk_calls _ _), call_congr (resolveSlot_calls _ .s1 _),
    call_congr (resolveSlot_calls _ .s0 _), endByEgress_call]
  cases b
  · rw [if_neg nofun, endByEgress_call]
    rfl
  · rfl

theorem settle_calls (before s : State) (after : List Notice) : (settle before s after).calls = s.calls := by
  obtain ⟨_, _, _, _, h⟩ := settle_frame before s after
  rw [h]

end Sys2Proof.Machine.State
end

section
/-! What every command does to the ledger: a chain of elementary changes from the state it finds. -/

namespace Sys2Proof.Machine

/-- The record of a call after an unpaid boarding, but for its mark (R47). -/
def Call.unpaidBoarded (k : Call) : Call := { k with boarded := { k.boarded with unpaid := bump k.boarded.unpaid } }

namespace State

variable {o : State}

/-! ### Requests and events -/

theorem whenRunning_moves {f : State → State} (h : Moves o (f o)) : Moves o (o.whenRunning f) := by
  unfold whenRunning
  split
  · exact h
  · exact .of_chain .refl

/-- What a request does to the ledger is what its owner does, from the state with the host heard. -/
theorem request_moves {kind : MsgKind} {dest : Dest} {len : BodyLen} {act : State → Act}
    (h : Moves o (act o.beginRequest).state) : Moves o (o.request kind dest len act) := by
  have answered : ∀ a : Act, Moves o a.state → Moves o (answer kind.code dest a) := by
    rintro a ⟨entry, hchain, hend⟩
    obtain ⟨b, hb⟩ := answer_frame kind.code dest a
    rw [hb]
    exact ⟨entry, hchain.same rfl, hend⟩
  refine whenRunning_moves (answered _ ?_)
  cases len with
  | wrong => exact .of_chain (chain_same rfl)
  | fits => exact h

theorem request_chain {kind : MsgKind} {dest : Dest} {len : BodyLen} {act : State → Act}
    (h : Chain o False o.beginRequest (act o.beginRequest).state) : Moves o (o.request kind dest len act) :=
  request_moves (.of_chain (h.after (chain_same rfl)))

theorem whenRunning_chain {f : State → State} (h : Chain o False o (f o)) : Moves o (o.whenRunning f) :=
  whenRunning_moves (.of_chain h)

/-- A request that changes nothing but what it answers. -/
theorem request_query {kind : MsgKind} {dest : Dest} {len : BodyLen} {act : State → Act}
    (h : (act o.beginRequest).state = o.beginRequest) : Moves o (o.request kind dest len act) :=
  request_chain (by rw [h])

/-! ### The bus and the clock -/

theorem actPoll_chain (s : State) : Chain o False s s.actPoll.state := by
  unfold actPoll
  dsimp only [Act.ok]
  obtain ⟨taken, hsplit, -, -⟩ := takeNotices_split s.layout (Config.pollItems - s.referralItems.length)
    (s.layout.pollHead + s.referralItems.length * s.layout.itemOctets referralCode) s.notices.queue
  refine Chain.after (.single (.delivered s.markDelivered _ _ ?_)) (chain_same rfl)
  conv_rhs => rw [show s.markDelivered.notices.queue = s.notices.queue from rfl, hsplit]
  rw [List.length_append]
  exact Nat.le_add_left _ _

theorem activate_chain (s : State) (t : Tariff) (cause : TariffCause) : Chain o False s (s.activate t cause) :=
  (queue_chain _ _).after (chain_same rfl)

theorem activatePending_chain (s : State) (cause : TariffCause) : Chain o False s (s.activatePending cause) := by
  unfold activatePending
  split
  · split
    · exact (activate_chain _ _ _).after (chain_same rfl)
    · exact .refl
  · exact .refl

theorem actClockSet_chain (s : State) (day secs : Nat) : Chain o False s (s.actClockSet day secs).state := by
  unfold actClockSet
  split
  · exact .refl
  · next h =>
    refine (activatePending_chain _ _).after ?_
    have h' : secs ≤ Config.lastSecond := Nat.le_of_not_lt h
    exact Chain.same (.single (.clock s ⟨day, secs⟩ h')) rfl

theorem nextSecond_secs (t : ClockTime) : (nextSecond t).secs ≤ Config.lastSecond := by
  unfold nextSecond
  split
  · assumption
  · split <;> exact Nat.zero_le _

/-! ### Calls -/

theorem stateMessage_chain (s : State) (berth vessel : Nat) (accepts : CallState → Bool) (act : Berth → Act)
    (h : ∀ b, accepts (s.call b).state = true → Chain o False s (act b).state) :
    Chain o False s (s.stateMessage berth vessel accepts act).state := by
  unfold stateMessage
  split
  · exact .refl
  · next b _ =>
    split
    · exact .refl
    · split
      · exact .refl
      · next haccepts =>
        split
        · exact .refl
        · exact h b (by simpa using haccepts)

theorem actCallOpen_chain (s : State) (berth vessel line capacity declared dwell : Nat) (hk : s.calls = o.calls)
    (hcl : s.claims = o.claims) (he : s.egress = o.egress) :
    Chain o False s (s.actCallOpen berth vessel line capacity declared dwell).state := by
  unfold actCallOpen
  split
  · exact .refl
  · next b _ =>
    split
    · exact .refl
    · split
      · exact .refl
      · next hactive =>
        split
        · exact .refl
        · next hvacant =>
          dsimp only [enteredReply, Act.ok]
          refine (settle_chain _ _ _).after ((queueIf_chain _ _ _).after ((queue_chain _ _).after (.single ?_)))
          refine .opened s b vessel line capacity declared dwell ?_ hk hcl ?_
          · rw [← call_congr hk]
            simpa using hvacant
          · rw [← he]
            simpa using hactive

theorem startBoarding_chain (s : State) (b : Berth) (h : (s.call b).state = .alongside) :
    Chain o False s (s.startBoarding b) :=
  (settle_chain _ _ _).after ((queue_chain _ _).after (.single (.boarding s b _ _ h)))

theorem adjusted_chain (s : State) (b : Berth) (delta : Int) (h : (s.call b).state.isOpen = true) :
    Chain o False s (s.adjusted b delta) := by
  refine (settle_chain _ _ _).after ?_
  have put := Change.adjusted (o := o) (entry := False) s b delta h
  split
  · next hd =>
    rw [if_pos hd] at put
    rw [markIfOver_setCall]
    exact (queueAll_chain _ _).after (.single put)
  · next hd =>
    rw [if_neg hd] at put
    exact .single put

theorem collected_chain (s : State) (b : Berth) (h : (s.call b).state = .ended) :
    Chain o False s (s.collected b) :=
  (settle_chain _ _ _).after ((queue_chain _ _).after (.single (.collected s b h)))

theorem countOutward_chain (s : State) (b : Berth) (h : (s.call b).state.isOpen = true) :
    Chain o False s (s.countOutward b) := by
  unfold countOutward
  dsimp only
  split
  · next haboard =>
    refine .single (.alighted s b h ?_)
    unfold Call.aboard at haboard
    omega
  · exact .single (.excess s b h)

/-- The tallies of a channel do not bear on a call's mark. -/
theorem markIfOver_setTallies (s : State) (c : Chan) (t : Tallies) (b : Berth) (cause : MarkCause) :
    (s.setTallies c t).markIfOver b cause = (s.markIfOver b cause).setTallies c t := by
  rw [markIfOver_eq, markIfOver_eq, queueAll_eq, queueAll_eq]
  rfl

/-- A notice queued before the mark stands before the mark's notice. -/
theorem markIfOver_queue (s : State) (n : Notice) (b : Berth) (cause : MarkCause) :
    (s.queue n).markIfOver b cause = (s.setCall b ((s.call b).markedAt (s.held b))).queueAll
      (n :: (s.call b).markNotice b cause (s.held b)) := by
  rw [markIfOver_eq, queue_eq, queueAll_eq, queueAll_eq]
  rfl

theorem setTallies_queueAll (s : State) (ns : List Notice) (c : Chan) (t : Tallies) :
    (s.queueAll ns).setTallies c t = (s.setTallies c t).queueAll ns := by
  rw [queueAll_eq, queueAll_eq]
  rfl

/-- An unpaid boarding: the record with its mark, the tally, and UNPAID_PASSAGE before OVER_CAPACITY (R47). -/
theorem unpaidBoarding_eq (s : State) (c : Chan) (b : Berth) : s.unpaidBoarding c b =
    ((s.setCall b ((s.call b).unpaidBoarded.markedAt (s.held b))).setTallies c
      { (s.chan c).tallies with unpaid := bump (s.chan c).tallies.unpaid }).queueAll
      (.unpaidPassage c b (s.call b).vessel (s.call b).unpaidBoarded.boarded.unpaid (s.call b).unpaidBoarded.aboard ::
        (s.call b).unpaidBoarded.markNotice b .unpaid (s.held b)) := by
  have hcall : (s.setCall b (s.call b).unpaidBoarded).call b = (s.call b).unpaidBoarded := by simp
  have hchan : ∀ n : Notice, ((s.setCall b (s.call b).unpaidBoarded).queue n).chan c = s.chan c := by
    intro n
    rw [queue_eq]
    rfl
  calc s.unpaidBoarding c b
      = (((s.setCall b (s.call b).unpaidBoarded).queue (.unpaidPassage c b (s.call b).vessel
          ((s.setCall b (s.call b).unpaidBoarded).call b).boarded.unpaid
          ((s.setCall b (s.call b).unpaidBoarded).call b).aboard)).setTallies c
          { (((s.setCall b (s.call b).unpaidBoarded).queue (.unpaidPassage c b (s.call b).vessel
            ((s.setCall b (s.call b).unpaidBoarded).call b).boarded.unpaid
            ((s.setCall b (s.call b).unpaidBoarded).call b).aboard)).chan c).tallies with
            unpaid := bump (((s.setCall b (s.call b).unpaidBoarded).queue (.unpaidPassage c b (s.call b).vessel
            ((s.setCall b (s.call b).unpaidBoarded).call b).boarded.unpaid
            ((s.setCall b (s.call b).unpaidBoarded).call b).aboard)).chan c).tallies.unpaid }).markIfOver b .unpaid := rfl
    _ = _ := by
      rw [hcall, hchan, markIfOver_setTallies, markIfOver_queue, setTallies_queueAll, hcall, setCall_setCall]
      rfl

theorem unpaidBoarding_chain (s : State) (c : Chan) (b : Berth) (h : (s.call b).state.isOpen = true) :
    Chain o False s (s.unpaidBoarding c b) := by
  rw [unpaidBoarding_eq]
  refine (queueAll_chain _ _).after (Chain.after (.single (.tally _ c _ fun h => ?_)) (.single (.unpaid s b h)))
  simp only [Tallies.counts, List.forall_mem_cons] at h ⊢
  obtain ⟨h1, h2, -, h4⟩ := h
  exact ⟨h1, h2, bump_le _, h4⟩

theorem consumeSeat_chain (s : State) (c : Chan) (b : Berth) (k : Claim) (ks : List Claim)
    (hk : s.calls = o.calls) (hcl : s.claims = o.claims) (hb : o.berthOf c = some b)
    (hopen : (s.call b).state.isOpen = true) (hlive : (s.claimsOf c).live = k :: ks) :
    Chain o False s (s.consumeSeat c b k ks) := by
  have put := Change.passed (o := o) (entry := False) s c b k ks (s.windowOf c) hk hcl hb hopen hlive
  obtain ⟨l, hl⟩ := modClaimAllot_frame (s.setCall b { s.call b with
    boarded := (s.call b).boarded.count k.kind }) k Allotment.pass
  unfold consumeSeat
  dsimp only
  rw [hl]
  split
  · next hmore =>
    rw [if_pos hmore] at put
    exact Chain.same (.single put) rfl
  · next hlast =>
    rw [if_neg hlast] at put
    exact (recordPassed_chain _ _).after (Chain.same (.single put) rfl)

/-- A tally one higher stays in its saturation with the others (R68). -/
theorem tallyPassage_chain (s : State) (c : Chan) (d : Direction) (held : Bool) :
    Chain o False s (s.tallyPassage c d held) := by
  refine .single (.tally s c _ fun h => ?_)
  simp only [Tallies.counts, List.forall_mem_cons, List.not_mem_nil, false_imp_iff, implies_true, and_true] at h ⊢
  cases d <;> cases held <;> simp [bump_le, h]

theorem strayPassage_chain (s : State) (c : Chan) : Chain o False s (s.strayPassage c) := by
  refine .single (.tally s c _ fun h => ?_)
  simp only [Tallies.counts, List.forall_mem_cons] at h ⊢
  obtain ⟨h1, h2, h3, -, h5⟩ := h
  exact ⟨h1, h2, h3, bump_le _, h5⟩

theorem routePassage_chain (s : State) (c : Chan) (d : Direction) (hk : s.calls = o.calls)
    (hcl : s.claims = o.claims) (hs : s.settings = o.settings) : Chain o False s (s.routePassage c d) := by
  have tallied := tallyPassage_chain (o := o) s c d false
  unfold routePassage
  split
  · exact tallyPassage_chain s c d true
  · dsimp only
    split
    · exact (strayPassage_chain _ c).after tallied
    · next b hb =>
      split
      · next hopen =>
        have hb' : o.berthOf c = some b := by
          rw [← hb, berthOf, berthOf, hs]
        refine Chain.after ?_ tallied
        unfold countPassage
        split
        · exact countOutward_chain _ b hopen
        · split
          · exact unpaidBoarding_chain _ c b hopen
          · next k ks hlive => exact consumeSeat_chain _ c b k ks hk hcl hb' hopen hlive
      · exact (strayPassage_chain _ c).after tallied

theorem beamMoves_chain (c : Chan) (beam : Beam) (broken : Bool) : Chain o False o (o.beamMoves c beam broken) := by
  unfold beamMoves
  split
  · exact .refl
  · next t passage _ =>
    have moved : Chain o False o (o.takeBeam c beam broken t) := setChan_chain o c _ rfl
    refine (select_chain _).after ((settle_chain _ _ _).after ?_)
    split
    · exact moved
    · exact moved.trans (routePassage_chain (o := o) (o.takeBeam c beam broken t) c _ rfl rfl rfl)

/-! ### Gates and egress -/

theorem setService_chain (s : State) (c : Chan) (flag : ServiceFlag) : Chain o False s (s.setService c flag) := by
  unfold setService
  split
  · exact .refl
  · have set : Chain o False s (s.setChan c { s.chan c with service := flag }) := setChan_chain s c _ rfl
    refine (settle_chain _ _ _).after ?_
    split
    · exact (refusePending_chain _ c _).after set
    · exact set

theorem isOpen_of_isBoarding {k : CallState} (h : k.isBoarding = true) : k.isOpen = true := by
  cases k <;> trivial

/-- A request that stands on a boarding call, on a channel with room for a claim, is answered by the headroom test
(R33). -/
theorem requestSeats_granted {s : State} {r : SeatRequest} {b : Berth} {n : Nat} (hb : s.berthOf r.channel = some b)
    (hboarding : (s.call b).state.isBoarding = true) (hroom : (s.claimsOf r.channel).count < Config.claimsPerChannel)
    (hn : s.seatsGranted b r = some n) :
    s.requestSeats r = (s.enterClaim r.channel (s.newClaim b r n), .granted n) := by
  have hroom' : ¬Config.claimsPerChannel ≤ (s.claimsOf r.channel).count := Nat.not_le.mpr hroom
  simp [requestSeats, hb, hboarding, hroom', hn]

/-- The tests of a staff release are passed (R50). -/
theorem releaseRefusal_eq_none {s : State} {c : Chan} {b : Berth} {force : Bool} :
    s.releaseRefusal c b force = none ↔ s.egress.active = false ∧ (s.call b).state.isBoarding = true ∧
      (s.chan c).state ≠ .suspended ∧ (s.chan c).state ≠ .egressHeld ∧
      (s.claimsOf c).count < Config.claimsPerChannel ∧ (force = true ∨ 0 < s.headroom b) := by
  unfold releaseRefusal
  rcases hactive : s.egress.active with _ | _
  · cases hboarding : (s.call b).state.isBoarding with
    | false => simp
    | true =>
      by_cases hstate : (s.chan c).state = .suspended ∨ (s.chan c).state = .egressHeld
      · rcases hstate with hstate | hstate <;> simp [hstate]
      · obtain ⟨hsuspended, hheld⟩ := not_or.mp hstate
        by_cases hroom : Config.claimsPerChannel ≤ (s.claimsOf c).count
        · simp [hsuspended, hheld, hroom, Nat.not_lt.mpr hroom]
        · cases force <;> simp [hsuspended, hheld, hroom, Nat.not_le.mp hroom, Nat.pos_iff_ne_zero]
  · simp

/-- The claims of a channel after a staff release (R51). -/
def staffClaims (s : State) (c : Chan) (b : Berth) : ChannelClaims :=
  { s.claimsOf c with live := joinLive (s.windowOf c) (s.claimsOf c).live (s.newClaim b (staffRequest c false) 1) }

theorem staffClaims_heldOn (s : State) (c : Chan) (b d : Berth) :
    (s.staffClaims c b).heldOn d = (s.claimsOf c).heldOn d + if d = b then 1 else 0 := by
  have hone : (s.newClaim b (staffRequest c false) 1).unpassed = 1 := rfl
  simp only [staffClaims, ChannelClaims.heldOn, heldIn_joinLive, heldIn_singleton, hone]
  exact Nat.add_right_comm _ _ _

/-- A staff release adds one live seat; a forced one may set the mark (R51). -/
theorem releaseSeat_eq {s : State} {c : Chan} {b : Berth} {force : Bool} (hb : s.berthOf c = some b)
    (h : s.releaseRefusal c b force = none) : s.releaseSeat c b force = settle s
      (if force then (s.setClaims c (s.staffClaims c b)).markIfOver b .staff
        else s.setClaims c (s.staffClaims c b)) [] := by
  obtain ⟨-, hboarding, -, -, hroom, hseat⟩ := releaseRefusal_eq_none.mp h
  have hn : s.seatsGranted b (staffRequest c force) = some 1 := by
    unfold seatsGranted
    split
    · rfl
    · next hno =>
      have : force = true := hseat.resolve_right hno
      simp [staffRequest, this]
  rw [releaseSeat, requestSeats_granted (r := staffRequest c force) hb hboarding hroom hn]
  rfl

theorem releaseSeat_chain {s : State} {c : Chan} {b : Berth} {force : Bool} (hb : s.berthOf c = some b)
    (h : s.releaseRefusal c b force = none) : Chain o False s (s.releaseSeat c b force) := by
  obtain ⟨-, hboarding, -, -, -, hseat⟩ := releaseRefusal_eq_none.mp h
  have hopen := isOpen_of_isBoarding hboarding
  have hheld : (s.setClaims c (s.staffClaims c b)).held b = s.held b + 1 := by
    have := held_setClaims s c (s.staffClaims c b) b
    rw [staffClaims_heldOn, if_pos rfl] at this
    omega
  rw [releaseSeat_eq hb h]
  refine (settle_chain _ _ _).after ?_
  split
  · rw [markIfOver_eq, hheld]
    exact (queueAll_chain _ _).after (.single (.forced s c b _ 1 hopen (staffClaims_heldOn s c b)))
  · next hforce =>
    exact .single (.granted s c b _ 1 (staffClaims_heldOn s c b) (hseat.resolve_left hforce))

theorem actChannelRelease_chain (s : State) (channel : Nat) (force : Option Bool) :
    Chain o False s (s.actChannelRelease channel force).state := by
  unfold actChannelRelease
  split
  · split
    · exact .refl
    · next b hb =>
      split
      · exact .refl
      · next hnone =>
        dsimp only [Act.ok]
        exact releaseSeat_chain hb hnone
  · exact .refl

theorem actChannelRestore_chain (s : State) (target : RestoreTarget) :
    Chain o False s (s.actChannelRestore target).state := by
  have unlatched : ∀ (t : State) (c : Chan), Chain o False t (t.unlatch c) := fun _ _ => chain_same rfl
  unfold actChannelRestore
  split
  · split
    · exact .refl
    · split
      · exact .refl
      · dsimp only [Act.ok]
        split
        · exact (settle_chain s (s.unlatch _) []).after (unlatched s _)
        · exact .refl
  · split
    · exact .refl
    · dsimp only [Act.ok]
      exact (settle_chain s (Chan.all.foldl unlatch s) []).after (foldl_chain _ unlatched _ _)

theorem enterEgress_moves {s : State} (h : ∀ entry, Chain o entry o s) (cause : EgressCause) :
    Moves o (settle o (s.enterEgress cause) []) := by
  refine ⟨True, (settle_chain _ _ _).after ((enterEgress_chain s cause trivial).after (h True)), fun _ b => ?_⟩
  rw [call_congr (settle_calls _ _ _)]
  exact enterEgress_closed s cause b

theorem actEgressClear_chain (s : State) : Chain o False s s.actEgressClear.state := by
  unfold actEgressClear
  split
  · exact .refl
  · split
    · exact .refl
    · split
      · exact chain_same rfl
      · dsimp only [Act.ok]
        exact (settle_chain s s.leaveEgress []).after (leaveEgress_chain s)

theorem holdRunsOut_chain (s : State) : Chain o False s s.holdRunsOut := by
  unfold holdRunsOut
  split
  · exact .refl
  · split
    · exact (settle_chain s s.leaveEgress []).after (leaveEgress_chain s)
    · exact chain_same rfl

theorem windowRunsOut_chain (s : State) (c : Chan) : Chain o False s (s.windowRunsOut c) := by
  unfold windowRunsOut
  split
  · exact (select_chain _).after ((settle_chain _ _ _).after (lapseHead_chain s c))
  · exact .refl

theorem suspensionRunsOut_chain (s : State) (c : Chan) : Chain o False s (s.suspensionRunsOut c) := by
  unfold suspensionRunsOut
  split
  · exact (select_chain _).after ((settle_chain _ _ _).after ((endClaims_chain _ c _).after (setChan_chain s c _ rfl)))
  · exact .refl

theorem obstructionRunsOut_chain (s : State) (c : Chan) : Chain o False s (s.obstructionRunsOut c) := by
  unfold obstructionRunsOut
  split
  · exact .refl
  · exact (queue_chain _ _).after (setChan_chain s c _ rfl)

end State

end Sys2Proof.Machine
end

section
/-! What the other commands do to the ledger, and that every command and every step is a chain of changes. -/

namespace Sys2Proof.Machine

namespace State

variable {o : State}

/-! ### Start-up -/

theorem firstDerivation_ledger (s : State) (c : Chan) : (s.firstDerivation c).ledger = s.ledger :=
  setChan_ledger s c _ rfl

/-- A start-up starts the ledger afresh, and enters egress where the line is found active (R171, R185). -/
theorem startUp_moves (cause : StartCause) (found : Found) : Moves o (o.startUp cause found) := by
  have derived : ∀ u : State, ((((u.firstDerivation .c0).firstDerivation .c1).firstDerivation .c2).firstDerivation
      .c3).ledger = u.ledger := fun u => by
    simp only [firstDerivation_ledger]
  have fresh : ∀ entry, Chain o entry o (o.cleared cause found) := fun _ => .single (.fresh o cause found)
  unfold startUp
  dsimp only
  split
  · refine ⟨True, Chain.same ((enterEgress_chain _ .line trivial).after (fresh True)) (derived _), fun _ b => ?_⟩
    exact enterEgress_closed (o.cleared cause found) .line b
  · exact .of_chain ((fresh False).same (derived _))

/-! ### The bus port, the clock and the settings -/

theorem actStatusClear_chain (s : State) : Chain o False s s.actStatusClear.state :=
  Chain.same (.single (.delivered s s.notices.queue false (Nat.le_refl _))) rfl

theorem actRestart_chain (s : State) : Chain o False s s.actRestart.state := by
  unfold actRestart
  split
  · exact .refl
  · exact chain_same rfl

theorem applySettings_chain (s : State) (new : Settings) (h : s.cfg.InRange → new.InRange) :
    Chain o False s (s.applySettings new) := by
  unfold applySettings
  split
  · exact .refl
  · have set : Chain o False s { s with
        settings := { s.settings with working := new }, reportTimer := s.reportTimerFor new } :=
      Chain.same (.single (.working s new h)) rfl
    exact (settle_chain _ _ _).after ((refuseBySettings_chain _ _).after set)

theorem actSettingsSet_chain (s : State) (number : Nat) (value : SettingValue) :
    Chain o False s (s.actSettingsSet number value).state := by
  unfold actSettingsSet
  split
  · exact .refl
  · split
    · next new before hput _ =>
      split
      · exact .refl
      · dsimp only [Act.ok]
        exact applySettings_chain s new (Settings.put_inRange hput)
    · exact .refl

theorem actSettingsStore_chain (s : State) : Chain o False s s.actSettingsStore.state := by
  unfold actSettingsStore
  split
  · exact .refl
  · split
    · exact .refl
    · next h => exact Chain.same (.single (.stored s (Nat.not_le.mp h))) rfl

theorem endStore_chain (s : State) (readBack : StoredImage) : Chain o False s (s.endStore readBack) := by
  unfold endStore
  split
  · exact .refl
  · exact (queue_chain _ _).after (chain_same rfl)

theorem actSettingsReload_chain (s : State) : Chain o False s s.actSettingsReload.state := by
  have faulted : ∀ fault, Chain o False s (s.setFault fault) := fun _ => chain_same rfl
  unfold actSettingsReload
  split
  · exact .refl
  · split
    · next new hload =>
      dsimp only [Act.ok]
      exact (applySettings_chain _ new fun _ => loadImage_inRange hload).after (faulted false)
    · dsimp only [Act.ok]
      exact (applySettings_chain _ .default fun _ => Settings.default_inRange).after (faulted true)

theorem actSettingsDefault_chain (s : State) : Chain o False s s.actSettingsDefault.state := by
  unfold actSettingsDefault
  split
  · exact .refl
  · dsimp only [Act.ok]
    exact applySettings_chain s .default fun _ => Settings.default_inRange

/-! ### Tables -/

theorem actLoadBegin_chain (s : State) (kind : Option LoadKind) (version count : Nat) (crc : BitVec 16) :
    Chain o False s (s.actLoadBegin kind version count crc).state := by
  unfold actLoadBegin
  split
  · exact .refl
  · split
    · exact .refl
    · dsimp only [Act.ok]
      split
      · exact chain_same rfl
      · split
        · exact chain_same rfl
        · exact .refl

theorem actLoadSegment_chain (s : State) (len : BodyLen) (index : Nat) (entries : List LoadEntry) :
    Chain o False s (s.actLoadSegment len index entries).state := by
  unfold actLoadSegment
  split
  · exact .refl
  · split
    · exact chain_same rfl
    · split
      · exact .refl
      · split
        · exact .refl
        · dsimp only
          split <;> exact chain_same rfl

theorem putTable_chain (s : State) (l : Load) : Chain o False s (s.putTable l).1 := by
  have closed : Chain o False s (s.setLoad none) := chain_same rfl
  unfold putTable
  dsimp only
  split
  · exact closed.same rfl
  · exact closed.same rfl
  · split
    · exact (activate_chain _ _ _).after closed
    · exact closed.same rfl

theorem actLoadCommit_chain (s : State) : Chain o False s s.actLoadCommit.state := by
  unfold actLoadCommit
  split
  · exact .refl
  · split
    · exact chain_same rfl
    · exact putTable_chain s _

theorem actLoadAbort_chain (s : State) : Chain o False s s.actLoadAbort.state := by
  unfold actLoadAbort
  split
  · exact .refl
  · exact chain_same rfl

theorem loadRunsOut_chain (s : State) : Chain o False s s.loadRunsOut := by
  unfold loadRunsOut
  split
  · exact .refl
  · split
    · exact (queue_chain _ _).after (chain_same rfl)
    · exact .refl

theorem actDenyEdit_chain (s : State) (len : BodyLen) (op : Option DenyOp) (items : List DenyItem) :
    Chain o False s (s.actDenyEdit len op items).state := by
  unfold actDenyEdit
  split
  · exact .refl
  · split
    · exact .refl
    · split
      · exact .refl
      · split
        · dsimp only
          split <;> exact chain_same rfl
        · exact chain_same rfl

theorem actAllotSet_chain (s : State) (token : CardId) (line total block : Nat) (expiry : Option ClockTime) :
    Chain o False s (s.actAllotSet token line total block expiry).state := by
  unfold actAllotSet
  split
  · exact .refl
  · split
    · split
      · exact .refl
      · exact chain_same rfl
    · split
      · exact .refl
      · exact chain_same rfl

theorem actAllotRemove_chain (s : State) (token : CardId) : Chain o False s (s.actAllotRemove token).state := by
  unfold actAllotRemove
  split
  · exact .refl
  · split
    · exact .refl
    · split
      · exact .refl
      · exact chain_same rfl

/-! ### Referrals, desk checks and validations -/

theorem actReferAnswer_chain (s : State) (id : Nat) (verdict : Option AnswerVerdict) (fare extra : Nat) :
    Chain o False s (s.actReferAnswer id verdict fare extra).state := by
  unfold actReferAnswer
  split
  · exact .refl
  · split
    · exact .refl
    · split
      · exact .refl
      · split
        · exact .refl
        · dsimp only [Act.ok]
          exact (settle_chain _ _ _).after (answerReferral_chain s _ _ _ _ _)

theorem actDeskCheck_chain (s : State) (line : Nat) (card : List Octet) :
    Chain o False s (s.actDeskCheck line card).state := by
  unfold actDeskCheck
  split
  · exact .refl
  · split
    · exact .refl
    · split
      · exact .refl
      · dsimp only [Act.ok]
        exact (select_chain _).after ((settle_chain _ _ _).after (arriveDesk_chain s _ _))

theorem complete_chain (s : State) : Chain o False s s.complete := by
  unfold complete
  split
  · exact .refl
  · exact (select_chain _).after ((settle_chain _ _ _).after (completeWork_chain s _))

theorem referralRunsOut_chain (s : State) (i : Slot) : Chain o False s (s.referralRunsOut i) := by
  unfold referralRunsOut
  split
  · exact .refl
  · split
    · exact (settle_chain _ _ _).after (resolveByFallback_chain s i)
    · exact .refl

theorem supervisionRunsOut_chain (s : State) : Chain o False s s.supervisionRunsOut := by
  unfold supervisionRunsOut
  split
  · exact .refl
  · exact (settle_chain _ _ _).after <| (resolveByFallback_chain _ .s1).after <|
      (resolveByFallback_chain _ .s0).after <| (queue_chain _ _).after (chain_same rfl)

/-! ### Reader lines -/

theorem setPort_chain (s : State) (c : Chan) (p : Port) : Chain o False s (s.setPort c p) := chain_same rfl

theorem attachAnew_chain (s : State) (c : Chan) : Chain o False s (s.attachAnew c) :=
  (sendSetup_chain s c).same rfl

theorem startAttach_chain (s : State) (c : Chan) : Chain o False s (s.startAttach c) :=
  (attachAnew_chain _ c).after (chain_same rfl)

/-- A valid frame's effect is that of what it carries, from a state with the ledger found. -/
theorem hearReader_chain (c : Chan) (take : State → State)
    (h : ∀ s : State, s.calls = o.calls → s.claims = o.claims → Chain o False s (take s)) :
    Chain o False o (o.hearReader c take) := by
  unfold hearReader
  split
  · exact startAttach_chain o c
  · exact (setPort_chain o c _).trans (h _ rfl rfl)
  · exact (setPort_chain o c _).trans (h _ rfl rfl)

theorem whenUp_chain (s : State) (c : Chan) (take : State → State) (h : Chain o False s (take s)) :
    Chain o False s (s.whenUp c take) := by
  unfold whenUp
  split
  · exact h
  · exact .refl
  · exact .refl

theorem lineUp_chain (s : State) (c : Chan) : Chain o False s (s.lineUp c) :=
  (settle_chain _ _ _).after (chain_same rfl)

theorem leaveUp_chain (s : State) (c : Chan) (line : LineState) : Chain o False s (s.leaveUp c line) := by
  refine (setPort_chain s c _).trans (setChan_chain _ c _ ?_)
  rfl

theorem withdrawn_chain (s : State) (c : Chan) :
    Chain o False s ((s.withdrawPresentation c).endWriteUnknown c) :=
  (endWriteUnknown_chain _ c).after (withdrawPresentation_chain s c)

theorem takeReady_chain (s : State) (c : Chan) : Chain o False s (s.takeReady c) := by
  unfold takeReady
  split
  · exact lineUp_chain s c
  · exact (select_chain _).after <| (attachAnew_chain _ c).after <| (settle_chain _ _ _).after <|
      (leaveUp_chain _ c _).after (withdrawn_chain s c)
  · exact .refl

theorem takePresent_chain (s : State) (c : Chan) (card : Card) : Chain o False s (s.takePresent c card) := by
  have ended := withdrawn_chain (o := o) s c
  unfold takePresent
  generalize (s.withdrawPresentation c).endWriteUnknown c = t at ended ⊢
  dsimp only
  have held := ended.trans (setPort_chain t c { t.port c with outstanding := some card })
  exact (select_chain _).after ((settle_chain _ _ _).after ((arrive_chain _ c card).after held))

theorem takeWithdraw_chain (s : State) (c : Chan) (id : CardId) : Chain o False s (s.takeWithdraw c id) := by
  unfold takeWithdraw
  split
  · exact .refl
  · split
    · exact withdrawPresentation_chain s c
    · exact .refl

theorem takeWriteResult_chain (s : State) (c : Chan) (tag : Nat) (ok : Bool) (hk : s.calls = o.calls)
    (hcl : s.claims = o.claims) : Chain o False s (s.takeWriteResult c tag ok) := by
  unfold takeWriteResult
  split
  · exact .refl
  · split
    · exact .refl
    · next w _ _ =>
      have ended : Chain o False s (s.setPort c { s.port c with awaited := none }) := chain_same rfl
      refine (select_chain _).after ((settle_chain _ _ _).after (Chain.after ?_ ended))
      split
      · exact writeDone_chain _ c tag hk hcl
      · exact writeFailed_chain _ c tag

theorem frameSent_chain (s : State) (c : Chan) : Chain o False s (s.frameSent c) := by
  unfold frameSent
  split
  · exact .refl
  · split
    · exact chain_same rfl
    · exact (startRecord_chain _ c _).after (chain_same rfl)

theorem attachRunsOut_chain (s : State) (c : Chan) : Chain o False s (s.attachRunsOut c) := by
  unfold attachRunsOut
  split
  · exact attachAnew_chain s c
  · exact .refl

theorem lineDown_chain (s : State) (c : Chan) : Chain o False s (s.lineDown c) := by
  unfold lineDown
  dsimp only
  split
  · refine (setPort_chain s c _).trans (setChan_chain _ c _ ?_)
    rfl
  · exact setPort_chain s c _

theorem inactivityRunsOut_chain (s : State) (c : Chan) : Chain o False s (s.inactivityRunsOut c) := by
  unfold inactivityRunsOut
  dsimp only
  split
  · exact .refl
  · exact (select_chain _).after <| (settle_chain _ _ _).after <| (withdrawn_chain _ c).after <|
      (lineDown_chain _ c).after (queue_chain s _)

theorem writeRunsOut_chain (s : State) (c : Chan) : Chain o False s (s.writeRunsOut c) := by
  unfold writeRunsOut
  split
  · exact .refl
  · split
    · exact (select_chain _).after ((settle_chain _ _ _).after (endWriteUnknown_chain s c))
    · exact .refl

/-! ### Call messages -/

theorem actBoardStart_chain (s : State) (berth vessel : Nat) :
    Chain o False s (s.actBoardStart berth vessel).state := by
  refine stateMessage_chain s _ _ _ _ fun b h => ?_
  dsimp only [enteredReply, Act.ok]
  exact startBoarding_chain s b (of_decide_eq_true h)

theorem actLastCall_chain (s : State) (berth vessel : Nat) : Chain o False s (s.actLastCall berth vessel).state := by
  refine stateMessage_chain s _ _ _ _ fun b h => ?_
  dsimp only [enteredReply, Act.ok]
  exact (settle_chain _ _ _).after (enterLastCall_chain s b _ (of_decide_eq_true h))

theorem actEnd_chain (s : State) (reason : EndReason) (berth vessel : Nat) :
    Chain o False s (s.actEnd reason berth vessel).state := by
  refine stateMessage_chain s _ _ _ _ fun b _ => ?_
  dsimp only [enteredReply, Act.ok]
  exact (settle_chain _ _ _).after (endCall_chain s b _ _)

theorem actCallCollect_chain (s : State) (berth vessel : Nat) :
    Chain o False s (s.actCallCollect berth vessel).state := by
  refine stateMessage_chain s _ _ _ _ fun b h => ?_
  dsimp only [Act.ok]
  exact collected_chain s b (of_decide_eq_true h)

theorem actAboardAdjust_chain (s : State) (berth vessel : Nat) (delta : Int) :
    Chain o False s (s.actAboardAdjust berth vessel delta).state := by
  unfold actAboardAdjust
  split
  · exact .refl
  · refine stateMessage_chain s _ _ _ _ fun b h => ?_
    dsimp only [Act.ok]
    exact adjusted_chain s b delta h

theorem actChannelService_chain (s : State) (channel : Nat) (value : Option ServiceFlag) :
    Chain o False s (s.actChannelService channel value).state := by
  unfold actChannelService
  split
  · dsimp only [Act.ok]
    exact setService_chain s _ _
  · exact .refl

/-! ### Timers of the call table, and egress -/

theorem queueReport_chain (s : State) (b : Berth) : Chain o False s (s.queueReport b) := queueIf_chain s _ _

theorem evacuateOn_moves : Moves o o.evacuateOn := by
  have taken : ∀ entry, Chain o entry o (o.takeEvacuate true) := fun entry =>
    .single (.egress o { o.egress with level := true } Or.inl)
  unfold evacuateOn
  dsimp only
  split
  · next hactive =>
    refine .of_chain (Chain.after (.single (.egress _ _ fun _ => .inl ?_))
      (Chain.after (.single (.egress _ { o.egress with level := true, byLine := true } ?_)) (taken False)))
    · exact hactive
    · exact Or.inl
  · exact enterEgress_moves taken .line

theorem actEgressEnter_moves (b : Bus) :
    Moves o ({ o with bus := b } : State).actEgressEnter.state := by
  have heard : ∀ entry, Chain o entry o { o with bus := b } := fun _ => chain_same rfl
  unfold actEgressEnter
  split
  · dsimp only [Act.ok]
    exact .of_chain (Chain.after (.single (.egress _ { o.egress with byCommand := true } Or.inl)) (heard False))
  · dsimp only [Act.ok]
    exact enterEgress_moves heard .command

/-! ### Every command, and every step -/

end State

open State

/-- What a command does to the ledger is a chain of elementary changes from the state it finds. -/
theorem exec_moves {i : Instr} {s t : State} (h : exec i s = .next t) : Moves s t := by
  cases i <;> obtain rfl := Host.Outcome.next.inj h
  case powerOn found => exact startUp_moves _ found
  case supplyDip => exact whenRunning_chain (chain_same rfl)
  case supplyRecovered found =>
    split
    · exact startUp_moves _ found
    · exact .of_chain .refl
  case commandStartUp found =>
    refine whenRunning_moves ?_
    split
    · exact startUp_moves _ found
    · exact .of_chain .refl
  case poll => exact request_chain (actPoll_chain _)
  case status => exact request_query rfl
  case statusClear => exact request_chain (actStatusClear_chain _)
  case restart => exact request_chain (actRestart_chain _)
  case unknownKind kind => exact whenRunning_chain (chain_same rfl)
  case broadcastIgnored => exact whenRunning_chain (chain_same rfl)
  case busFrameDiscarded why => exact whenRunning_chain (by cases why <;> exact chain_same rfl)
  case clockSet day secs => exact request_chain (actClockSet_chain _ day secs)
  case clockSecond =>
    refine whenRunning_chain ?_
    split
    · exact .refl
    · exact (activatePending_chain _ _).after (.single (.clock s _ (nextSecond_secs _)))
  case callOpen => exact request_chain (actCallOpen_chain _ _ _ _ _ _ _ rfl rfl rfl)
  case boardStart => exact request_chain (actBoardStart_chain _ _ _)
  case lastCall => exact request_chain (actLastCall_chain _ _ _)
  case castOff => exact request_chain (actEnd_chain _ _ _ _)
  case callCancel => exact request_chain (actEnd_chain _ _ _ _)
  case callQuery len berth => exact request_query (by unfold actCallQuery; split <;> rfl)
  case callCollect => exact request_chain (actCallCollect_chain _ _ _)
  case aboardAdjust => exact request_chain (actAboardAdjust_chain _ _ _ _)
  case channelQuery len channel => exact request_query (by unfold actChannelQuery; split <;> rfl)
  case channelService => exact request_chain (actChannelService_chain _ _ _)
  case channelRelease => exact request_chain (actChannelRelease_chain _ _ _)
  case channelRestore => exact request_chain (actChannelRestore_chain _ _)
  case egressEnter => exact request_moves (actEgressEnter_moves _)
  case egressClear => exact request_chain (actEgressClear_chain _)
  case loadBegin => exact request_chain (actLoadBegin_chain _ _ _ _ _)
  case loadSegment => exact request_chain (actLoadSegment_chain _ _ _ _)
  case loadCommit => exact request_chain (actLoadCommit_chain _)
  case loadAbort => exact request_chain (actLoadAbort_chain _)
  case denyEdit => exact request_chain (actDenyEdit_chain _ _ _ _)
  case tableQuery len subject =>
    refine request_query ?_
    unfold actTableQuery
    split
    · rfl
    · rfl
    · split <;> rfl
    · split <;> rfl
    · rfl
    · rfl
  case allotSet => exact request_chain (actAllotSet_chain _ _ _ _ _ _)
  case allotRemove => exact request_chain (actAllotRemove_chain _ _)
  case allotQuery len key =>
    refine request_query ?_
    unfold actAllotQuery
    split <;> split <;> rfl
  case referAnswer => exact request_chain (actReferAnswer_chain _ _ _ _ _)
  case deskCheck => exact request_chain (actDeskCheck_chain _ _ _)
  case settingsGet len number =>
    refine request_query ?_
    unfold actSettingsGet
    split
    · rfl
    · split <;> rfl
  case settingsSet => exact request_chain (actSettingsSet_chain _ _ _)
  case settingsStore => exact request_chain (actSettingsStore_chain _)
  case storeWriteEnd => exact whenRunning_chain (endStore_chain _ _)
  case settingsReload => exact request_chain (actSettingsReload_chain _)
  case settingsDefault => exact request_chain (actSettingsDefault_chain _)
  case present c body =>
    refine whenRunning_chain (hearReader_chain c _ fun u _ _ => whenUp_chain u c _ ?_)
    split
    · exact .refl
    · exact takePresent_chain u c _
  case withdraw c body =>
    refine whenRunning_chain (hearReader_chain c _ fun u _ _ => whenUp_chain u c _ ?_)
    split
    · exact .refl
    · exact takeWithdraw_chain u c _
  case writeResult c body =>
    refine whenRunning_chain (hearReader_chain c _ fun u hk hcl => whenUp_chain u c _ ?_)
    split
    · exact .refl
    · exact takeWriteResult_chain u c _ _ hk hcl
  case alive c => exact whenRunning_chain (hearReader_chain c _ fun _ _ _ => .refl)
  case ready c => exact whenRunning_chain (hearReader_chain c _ fun u _ _ => takeReady_chain u c)
  case readerFrameDiscarded c why =>
    refine whenRunning_chain ?_
    cases why with
    | damaged => exact setPort_chain s c _
    | wrongKind => exact hearReader_chain c _ fun _ _ _ => .refl
    | malformed => exact hearReader_chain c _ fun _ _ _ => .refl
  case readerFrameSent c => exact whenRunning_chain (frameSent_chain _ c)
  case attachTimerExpiry c => exact whenRunning_chain (attachRunsOut_chain _ c)
  case readerInactivityExpiry c => exact whenRunning_chain (inactivityRunsOut_chain _ c)
  case writeTimerExpiry c => exact whenRunning_chain (writeRunsOut_chain _ c)
  case validationCompletion => exact whenRunning_chain (complete_chain _)
  case referralTimerExpiry i => exact whenRunning_chain (referralRunsOut_chain _ i)
  case supervisionTimerExpiry => exact whenRunning_chain (supervisionRunsOut_chain _)
  case loadInactivityExpiry => exact whenRunning_chain (loadRunsOut_chain _)
  case dwellTimerExpiry b =>
    refine whenRunning_chain ?_
    split
    · next h =>
      have hstate : (s.call b).state = .boarding := by simpa using (Bool.and_eq_true_iff.mp h).2
      exact (settle_chain _ _ _).after (enterLastCall_chain s b _ hstate)
    · exact .refl
  case lastCallTimerExpiry b =>
    refine whenRunning_chain ?_
    split
    · exact (settle_chain _ _ _).after (endCall_chain s b _ _)
    · exact .refl
  case reportTimerExpiry =>
    refine whenRunning_chain ?_
    split
    · exact .refl
    · split
      · exact chain_same rfl
      · exact Chain.same ((queueReport_chain s .b0).trans (queueReport_chain _ .b1)) rfl
  case passWindowExpiry c => exact whenRunning_chain (windowRunsOut_chain _ c)
  case suspensionTimerExpiry c => exact whenRunning_chain (suspensionRunsOut_chain _ c)
  case obstructionTimerExpiry c => exact whenRunning_chain (obstructionRunsOut_chain _ c)
  case minimumHoldExpiry => exact whenRunning_chain (holdRunsOut_chain _)
  case beamEvent c beam broken => exact whenRunning_chain (beamMoves_chain c beam broken)
  case rampUnsafe c => exact whenRunning_chain ((settle_chain _ _ _).after (setChan_chain s c _ rfl))
  case rampSafe c => exact whenRunning_chain ((settle_chain _ _ _).after (setChan_chain s c _ rfl))
  case evacuateActive => exact whenRunning_moves evacuateOn_moves
  case evacuateInactive => exact whenRunning_chain (.single (.egress s _ Or.inl))
  case busReplySent => exact whenRunning_chain (by split <;> exact chain_same rfl)

end Sys2Proof.Machine
end

section
/-! The conditions on records, calls and capacity that every step keeps. -/

namespace Sys2Proof.Machine

open Safety

/-- A step is a chain of elementary changes from the state found, with some of the queue taken. -/
theorem step_moves {s t : State} (h : step s = .next t) : ∃ rest, Moves { s with pending := rest } t := by
  unfold step at h
  split at h
  · obtain rfl := Host.Outcome.next.inj h
    refine ⟨s.pending, .of_chain ?_⟩
    unfold State.idle
    split
    · exact .single (.ticked s)
    · exact .refl
  · exact ⟨_, exec_moves h⟩

/-- A condition that every elementary change keeps holds after a step: it holds of the state found, which the
queue of commands does not bear on. -/
theorem step_keeps {P : State → Prop} {s t : State} (h : step s = .next t)
    (pending : ∀ rest, P s → P { s with pending := rest })
    (change : ∀ rest entry u v, Change { s with pending := rest } entry u v → P u → P v) (hs : P s) : P t := by
  obtain ⟨rest, entry, hchain, -⟩ := step_moves h
  exact hchain.keeps (change rest entry) (pending rest hs)

end Sys2Proof.Machine

open Sys2Proof.Machine

/-- Settles O10: a mark is missed by no elementary change of the ledger. -/
theorem overCapacityStaysMarked : Obligations.OverCapacityStaysMarked := by
  intro s t ho hu hc hm h
  have both := step_keeps (P := fun u => Safety.CountsBounded u ∧ Safety.OverCapacityMarked u) h (fun _ => id)
    (fun rest _ u v change ⟨hcu, hmu⟩ =>
      ⟨change.countsBounded hcu, change.overCapacityMarked (o := { s with pending := rest }) ho hu hcu hmu⟩)
    ⟨hc, hm⟩
  exact both.2

/-- Settles O6: each range is kept by every elementary change of the ledger. -/
theorem recordsStayInRange : Obligations.RecordsStayInRange := by
  intro s t h
  exact ⟨step_keeps h (fun _ => id) fun _ _ _ _ => Change.queuesBounded,
    step_keeps h (fun _ => id) fun _ _ _ _ => Change.countersRun,
    step_keeps h (fun _ => id) fun _ _ _ _ => Change.settingsInRange,
    step_keeps h (fun _ => id) fun _ _ _ _ => Change.storesCounted,
    step_keeps h (fun _ => id) fun _ _ _ _ => Change.clockInRange,
    step_keeps h (fun _ => id) fun _ _ _ _ => Change.countsBounded⟩

/-- Settles O9: egress leaves no call open, and the conditions on a record are kept by every elementary change. -/
theorem callsStaySound : Obligations.CallsStaySound := by
  intro s t h
  refine ⟨fun he => ?_, fun hc ha => ?_, ?_, fun ho => ?_⟩
  · obtain ⟨rest, moves⟩ := step_moves h
    exact moves.egressEndsCalls (o := { s with pending := rest }) he
  · exact (step_keeps (P := fun u => Safety.CountsBounded u ∧ Safety.AboardCounted u) h (fun _ => id)
      (fun _ _ u v change ⟨hcu, hau⟩ => ⟨change.countsBounded hcu, change.aboardCounted hcu hau⟩) ⟨hc, ha⟩).2
  · exact step_keeps h (fun _ => id) fun _ _ _ _ => Change.timersFollowCalls
  · exact step_keeps h (fun _ => id) fun rest _ _ _ => Change.vacantZeroed (o := { s with pending := rest }) ho
end

section
/-! The passing of time, the run-outs that change nothing, and the state after reset. -/

namespace Sys2Proof.Machine.State

/-! ### One millisecond (assumption 3) -/

theorem phase_later (s : State) : s.tick.clockPhase = match s.clock with
    | none => s.clockPhase
    | some _ => if s.clockPhase < 999 then s.clockPhase + 1 else 0 := by
  show (if s.clock.isNone then s.clockPhase else if 1000 ≤ s.clockPhase + 1 then 0 else s.clockPhase + 1) = _
  cases s.clock with
  | none => rfl
  | some now =>
    rw [if_neg (by simp)]
    dsimp only
    split <;> split <;> omega

theorem claims_later (s : State) (c : Chan) : s.claimsLater c = match (s.claimsOf c).live with
    | [] => s.claimsOf c
    | k :: ks => if (s.chan c).state = .suspended then s.claimsOf c
      else { s.claimsOf c with live := { k with window := k.window - 1 } :: ks } := by
  unfold claimsLater
  cases hlive : (s.claimsOf c).live with
  | nil =>
    have same : { s.claimsOf c with live := windowLater [] } = s.claimsOf c := by
      rw [windowLater, ← hlive]
    rw [same, ite_self]
  | cons k ks => rfl

/-! ### Run-outs whose timer is not at 0 (assumption 7) -/

theorem ranOut_of_ne {t : Timer} (h : t ≠ some 0) : ranOut t = false := decide_eq_false h

theorem whenRunning_same {s : State} {f : State → State} (h : f s = s) : s.whenRunning f = s := by
  unfold whenRunning
  cases s.power
  · exact h
  · rfl

theorem ranOut_runningWindow {s : State} {c : Chan} (h : (s.claimsOf c).live.head?.map Claim.window ≠ some 0) :
    ranOut (s.runningWindow c) = false := by
  refine ranOut_of_ne ?_
  unfold runningWindow
  split
  · exact nofun
  · next k _ hlive =>
    split
    · exact nofun
    · simpa [hlive] using h

theorem writeRunsOut_early {s : State} {c : Chan} (h : (s.port c).awaited.map AwaitedWrite.left ≠ some 0) :
    s.writeRunsOut c = s := by
  unfold writeRunsOut
  split
  · rfl
  · next w hw => exact if_neg fun hleft => h (by rw [hw, Option.map_some, hleft])

theorem referralRunsOut_early {s : State} {i : Slot} (h : (s.slot i).map Referral.left ≠ some 0) :
    s.referralRunsOut i = s := by
  unfold referralRunsOut
  split
  · rfl
  · next r hr => exact if_neg fun hleft => h (by rw [hr, Option.map_some, hleft])

theorem loadRunsOut_early {s : State} (h : s.tables.load.map Load.idle ≠ some 0) : s.loadRunsOut = s := by
  unfold loadRunsOut
  split
  · rfl
  · next l hl => exact if_neg fun hidle => h (by rw [hl, Option.map_some, hidle])

end Sys2Proof.Machine.State

open Sys2Proof Sys2Proof.Machine Sys2Proof.Machine.State

/-- Settles O3: the model's tick is written out field by field, and each run-out asks its timer first. -/
theorem idleStepIsOneMillisecond : Obligations.IdleStepIsOneMillisecond := by
  refine ⟨fun s hpending => ⟨fun hrunning => ?_, fun hinactive => ?_⟩, ?_⟩
  · have hstep : step s = .next s.tick := by
      unfold step
      rw [hpending]
      simp only [idle, hrunning]
    rw [hstep]
    refine congrArg Host.Outcome.next ?_
    unfold tick
    rw [hpending]
    congr 1
    · exact s.phase_later
    · exact congrArg PerChan.of (funext s.claims_later)
  · unfold step
    rw [hpending]
    simp only [idle, hinactive]
  · intro s b c j i timer hmem hne
    simp only [List.mem_cons, Prod.mk.injEq, List.not_mem_nil, or_false] at hmem
    rcases hmem with ⟨rfl, rfl⟩ | ⟨rfl, rfl⟩ | ⟨rfl, rfl⟩ | ⟨rfl, rfl⟩ | ⟨rfl, rfl⟩ | ⟨rfl, rfl⟩ | ⟨rfl, rfl⟩ |
      ⟨rfl, rfl⟩ | ⟨rfl, rfl⟩ | ⟨rfl, rfl⟩ | ⟨rfl, rfl⟩ | ⟨rfl, rfl⟩ | ⟨rfl, rfl⟩ <;>
      refine congrArg Host.Outcome.next (whenRunning_same ?_)
    · simp [ranOut_of_ne hne]
    · simp [ranOut_of_ne hne]
    · simp [ranOut_of_ne hne]
    · simp [inactivityRunsOut, ranOut_of_ne hne]
    · simp [attachRunsOut, ranOut_of_ne hne]
    · exact writeRunsOut_early hne
    · simp [windowRunsOut, ranOut_runningWindow hne]
    · simp [suspensionRunsOut, ranOut_of_ne hne]
    · simp [obstructionRunsOut, ranOut_of_ne hne]
    · exact referralRunsOut_early hne
    · simp [supervisionRunsOut, ranOut_of_ne hne]
    · exact loadRunsOut_early hne
    · simp [holdRunsOut, ranOut_of_ne hne]

/-- Settles O5: at reset every record is VACANT, every list is empty and every reader DOWN, so that each condition
is read off the state. -/
theorem resetIsSafe : Obligations.ResetIsSafe := by
  have vacant : ∀ b, State.reset.call b = .zeroed := fun b => PerBerth.get_same _ b
  have stopped : ∀ b, State.reset.timersOf b = .stopped := fun b => PerBerth.get_same _ b
  have unclaimed : ∀ c, State.reset.claimsOf c = .none := fun c => PerChan.get_same _ c
  have channel : ∀ c, State.reset.chan c = .atReset := fun c => PerChan.get_same _ c
  have port : ∀ c, State.reset.port c = .atStart := fun c => PerChan.get_same _ c
  have slots : ∀ i, State.reset.slot i = none := fun i => by cases i <;> rfl
  have noClaim : ∀ c, ∀ k, k ∉ (State.reset.claimsOf c).every := by
    intro c k
    rw [unclaimed]
    exact List.not_mem_nil
  have limited : Safety.ClaimsLimited State.reset := fun c => by rw [unclaimed]; exact Nat.zero_le _
  have unpassed : Safety.ClaimsUnpassed State.reset :=
    ⟨fun c k hk => (noClaim c k hk).elim, fun a ha => (List.not_mem_nil ha).elim,
      fun w hw => (Option.some_ne_none w hw.symm).elim,
      fun i r hr => (Option.some_ne_none r (hr.symm.trans (slots i))).elim⟩
  have aboard : Safety.AboardCounted State.reset := fun b => by rw [vacant]; exact Nat.zero_le _
  have marked : Safety.OverCapacityMarked State.reset := fun b hopen => by rw [vacant] at hopen; cases hopen
  have timers : Safety.TimersFollowCalls State.reset := fun b => by rw [vacant, stopped]; decide
  have derived : Safety.ChannelsDerived State.reset := fun _ c => by cases c <;> decide
  have ports : Safety.PortsSound State.reset := fun c => by rw [port]; decide
  have held : Safety.HeldOnce State.reset := fun c => by rw [port]; cases c <;> rfl
  have counts : Safety.CountsBounded State.reset :=
    ⟨fun b => by rw [vacant]; decide, fun c => by rw [channel]; decide⟩
  exact ⟨⟨by decide, by decide⟩, limited, unpassed, fun c k hk => (noClaim c k hk).elim, nofun, aboard, marked,
    timers, derived, fun _ => rfl, ports, held, ⟨nofun, .nil, Nat.zero_le _, nofun⟩, fun b _ => vacant b,
    ⟨rfl, rfl, rfl⟩, nofun, Settings.default_inRange, Nat.zero_le _, counts⟩
end

section
/-! What a request leaves: the reply at the bus port, with what its owner does, and the tests that come first. The
queries, and the tests of the state messages. -/

namespace Sys2Proof

theorem Berth.ofNum?_num (b : Berth) : Berth.ofNum? b.num = some b := by cases b <;> rfl

theorem Berth.ofNum?_eq_none {n : Nat} (h : 1 < n) : Berth.ofNum? n = none := by
  match n with
  | 0 | 1 => omega
  | _ + 2 => rfl

theorem Berth.num_le (b : Berth) : b.num ≤ 1 := by cases b <;> decide

theorem Berth.num_inj {b d : Berth} (h : b.num = d.num) : b = d := by
  have hnum := congrArg Berth.ofNum? h
  rw [Berth.ofNum?_num, Berth.ofNum?_num] at hnum
  exact Option.some.inj hnum

theorem Chan.ofNum?_num (c : Chan) : Chan.ofNum? c.num = some c := by cases c <;> rfl

theorem Chan.ofNum?_eq_none {n : Nat} (h : 3 < n) : Chan.ofNum? n = none := by
  match n with
  | 0 | 1 | 2 | 3 => omega
  | _ + 4 => rfl

namespace Machine.State

/-! ### Requests (R172 to R174) -/

/-- A request that a running part takes: what its owner makes of it, with the reply at the bus port. -/
theorem request_acts {s t : State} {kind : MsgKind} {dest : Dest} {act : State → Act} {code : ReplyCode}
    {body : ReplyBody} (hrun : s.power = .running) (hact : act s.beginRequest = ⟨t, code, body⟩)
    (hbus : t.bus = s.beginRequest.bus) :
    s.request kind dest .fits act = { t with bus := s.repliedBus kind dest code body } := by
  rw [request_fits s kind dest act hrun, hact]
  cases dest with
  | part =>
    simp only [answer, hbus]
    rfl
  | broadcast =>
    show t = { t with bus := s.beginRequest.bus }
    rw [← hbus]

/-- A request that is refused changes only the bus port (R174). -/
theorem request_refused {s : State} {kind : MsgKind} {dest : Dest} {act : State → Act} {code : ReplyCode}
    (hrun : s.power = .running) (hact : act s.beginRequest = .refuse s.beginRequest code) :
    s.request kind dest .fits act = { s with bus := s.repliedBus kind dest code .empty } :=
  request_acts (t := s.beginRequest) hrun hact rfl

/-- A request that only asks changes only the bus port. -/
theorem request_answered {s : State} {kind : MsgKind} {dest : Dest} {act : State → Act} {body : ReplyBody}
    (hrun : s.power = .running) (hact : act s.beginRequest = .ok s.beginRequest body) :
    s.request kind dest .fits act = { s with bus := s.repliedBus kind dest .ok body } :=
  request_acts (t := s.beginRequest) hrun hact rfl

theorem whenRunning_running {s : State} (hrun : s.power = .running) (f : State → State) :
    s.whenRunning f = f s := by
  unfold whenRunning
  rw [hrun]

/-! ### The tests of a state message (R8) -/

theorem stateMessage_badField (s : State) {n v : Nat} (accepts : CallState → Bool) (act : Berth → Act)
    (h : 1 < n ∨ v = 0) : s.stateMessage n v accepts act = .refuse s .badField := by
  unfold stateMessage
  rcases h with h | h
  · rw [Berth.ofNum?_eq_none h]
  · cases Berth.ofNum? n with
    | none => rfl
    | some b => exact if_pos h

theorem stateMessage_wrongState (s : State) {b : Berth} {v : Nat} {accepts : CallState → Bool} (act : Berth → Act)
    (hv : v ≠ 0) (h : accepts (s.call b).state = false ∨ (s.call b).vessel ≠ v) :
    s.stateMessage b.num v accepts act = .refuse s .wrongState := by
  unfold stateMessage
  rw [Berth.ofNum?_num]
  dsimp only
  rw [if_neg hv]
  rcases h with h | h
  · rw [h]
    rfl
  · rw [if_pos h]
    exact ite_self _

theorem stateMessage_accepts (s : State) {b : Berth} {v : Nat} {accepts : CallState → Bool} (act : Berth → Act)
    (hv : v ≠ 0) (haccepts : accepts (s.call b).state = true) (hvessel : (s.call b).vessel = v) :
    s.stateMessage b.num v accepts act = act b := by
  unfold stateMessage
  rw [Berth.ofNum?_num]
  dsimp only
  rw [if_neg hv, haccepts, if_neg (by exact Bool.false_ne_true), if_neg (not_not.mpr hvessel)]

theorem actCallQuery_num (s : State) (b : Berth) :
    actCallQuery b.num s = .ok s (.callRecord (s.callReport b)) := by
  unfold actCallQuery
  rw [Berth.ofNum?_num]

theorem actChannelQuery_num (s : State) (c : Chan) :
    actChannelQuery c.num s = .ok s (.channel (s.channelReport c)) := by
  unfold actChannelQuery
  rw [Chan.ofNum?_num]

theorem actSettingsGet_some {s : State} {n : Nat} {v : SettingValue} (hn : n ≠ 0) (hv : s.cfg.value? n = some v) :
    actSettingsGet n s = .ok s (.settings [v]) := by
  rw [actSettingsGet, if_neg hn, hv]

/-! ### What an event's end leaves -/

theorem settle_bus (before s : State) (after : List Notice) : (settle before s after).bus = s.bus := by
  obtain ⟨_, _, _, _, h⟩ := settle_frame before s after
  rw [h]

theorem queueCallState_bus (s : State) (b : Berth) (v : Nat) (l : CallState) (cause : CallCause) :
    (s.queueCallState b v l cause).bus = s.bus := by
  obtain ⟨_, h⟩ := queueCallState_frame s b v l cause
  rw [h]

theorem collected_bus (s : State) (b : Berth) : (s.collected b).bus = s.bus := by
  rw [collected, settle_bus, queueCallState_bus]
  rfl

/-! ### The figures of the queries -/

theorem productVersion_eq (s : State) : s.productVersion = match s.tables.product with
    | none => 0
    | some t => t.version := by
  unfold productVersion
  cases s.tables.product <;> rfl

theorem tariffVersion_eq (s : State) : s.tariffVersion = match s.tables.active with
    | none => 0
    | some t => t.version := by
  unfold tariffVersion
  cases s.tables.active <;> rfl

theorem slotsHeld_eq (s : State) :
    s.slotsHeld = (if s.slot .s0 = none then 0 else 1) + if s.slot .s1 = none then 0 else 1 := by
  have one : ∀ r : Option Referral, (if r.isSome then 1 else 0) = if r = none then 0 else 1 := fun r => by
    cases r <;> simp
  exact congrArg₂ (· + ·) (one _) (one _)

theorem productCount_eq (s : State) : ((s.tables.product.map ProductTable.entries).getD []).length =
    match s.tables.product with
    | none => 0
    | some t => t.entries.length := by
  cases s.tables.product <;> rfl

end Machine.State

/-- A setting's number is at most 31 (Table 12-1). -/
theorem Machine.Settings.value?_eq_none (k : Settings) {n : Nat} (h : 31 < n) : k.value? n = none := by
  obtain ⟨m, rfl⟩ : ∃ m, n = m + 32 := ⟨n - 32, by omega⟩
  rfl

end Sys2Proof

open Sys2Proof Sys2Proof.Machine Sys2Proof.Machine.State

/-- Settles O21: the query reads the record that CALL_COLLECT of an ENDED call would answer with. -/
theorem callQueryReportsTheRecord : Obligations.CallQueryReportsTheRecord := by
  intro s n hrun
  by_cases hn : 1 < n
  · have hact : actCallQuery n s.beginRequest = .refuse s.beginRequest .badField := by
      unfold actCallQuery
      rw [Berth.ofNum?_eq_none hn]
    refine ⟨_, congrArg Host.Outcome.next (request_refused hrun hact), rfl, fun _ => rfl, fun b hb => ?_⟩
    exact absurd (hb ▸ b.num_le) (Nat.not_le.mpr hn)
  · obtain ⟨b, rfl⟩ : ∃ b : Berth, n = b.num := by
      rcases Nat.le_one_iff_eq_zero_or_eq_one.mp (Nat.not_lt.mp hn) with rfl | rfl
      · exact ⟨.b0, rfl⟩
      · exact ⟨.b1, rfl⟩
    refine ⟨_, congrArg Host.Outcome.next (request_answered hrun (actCallQuery_num s.beginRequest b)), rfl,
      fun h => absurd h hn, fun d hd => ?_⟩
    obtain rfl := Berth.num_inj hd
    refine ⟨_, rfl, rfl, fun hzeroed => hzeroed b, fun hended hvessel => ?_⟩
    have hact : actCallCollect b.num (s.call b).vessel s.beginRequest =
        .ok (s.beginRequest.collected b) (.callRecord (s.callReport b)) :=
      stateMessage_accepts s.beginRequest _ hvessel (decide_eq_true hended) rfl
    exact ⟨_, congrArg Host.Outcome.next (request_acts hrun hact (collected_bus _ b)), rfl⟩

/-- Settles O20: each query's owner answers with the figures of the state as the frame leaves it. -/
theorem queriesChangeNothing : Obligations.QueriesChangeNothing := by
  intro s hrun
  refine ⟨?_, ?_, ?_, ?_, ?_, ?_, ?_, ?_, ?_, ?_, ?_, ?_, ?_, ?_, ?_, ?_⟩
  · refine congrArg Host.Outcome.next ((request_answered hrun rfl).trans ?_)
    congr 4
    unfold statusReport
    congr 1
    · exact productVersion_eq s
    · exact tariffVersion_eq s
    · exact slotsHeld_eq s
  · exact fun b => congrArg Host.Outcome.next (request_answered hrun (actCallQuery_num s.beginRequest b))
  · exact fun c => congrArg Host.Outcome.next (request_answered hrun (actChannelQuery_num s.beginRequest c))
  · refine congrArg Host.Outcome.next ((request_answered hrun rfl).trans ?_)
    congr 4
    unfold tableSummary
    congr 1
    · exact productVersion_eq s
    · exact productCount_eq s
    · exact tariffVersion_eq s
  · exact fun id hid => congrArg Host.Outcome.next (request_answered hrun (if_neg hid))
  · exact fun n hlo hhi => congrArg Host.Outcome.next (request_answered hrun
      (if_neg (by simp [within, hlo, hhi])))
  · exact congrArg Host.Outcome.next (request_answered hrun rfl)
  · exact congrArg Host.Outcome.next (request_answered hrun rfl)
  · exact fun n hn => congrArg Host.Outcome.next (request_answered hrun (if_neg (Nat.not_lt.mpr hn)))
  · exact fun id hid => congrArg Host.Outcome.next (request_answered hrun (if_neg hid))
  · exact congrArg Host.Outcome.next (request_answered hrun rfl)
  · intro n v hv
    have hn : n ≠ 0 := fun h => by rw [h] at hv; cases hv
    exact congrArg Host.Outcome.next (request_answered hrun (actSettingsGet_some (s := s.beginRequest) hn hv))
  · intro n hn
    refine congrArg Host.Outcome.next (request_refused hrun ?_)
    rw [actChannelQuery, Chan.ofNum?_eq_none hn]
  · intro subject n h
    refine congrArg Host.Outcome.next (request_refused hrun ?_)
    rcases h with rfl | rfl | ⟨rfl, hn⟩
    · rfl
    · rfl
    · exact if_pos (by simp only [within]; rcases hn with hn | hn <;> simp [hn])
  · intro key n h
    refine congrArg Host.Outcome.next (request_refused hrun ?_)
    rcases h with rfl | ⟨rfl, hn⟩
    · rfl
    · exact if_pos hn
  · intro n hn
    refine congrArg Host.Outcome.next (request_refused hrun ?_)
    rw [actSettingsGet, if_neg (by omega), Settings.value?_eq_none _ hn]

/-- Settles O25: the five messages share one test, and differ in what an accepted one does. -/
theorem stateMessagesAreTested : Obligations.StateMessagesAreTested := by
  intro s n v hrun i k accepts hmem
  obtain ⟨act, hexec, hact⟩ : ∃ act : State → Berth → Act,
      exec i s = .next (s.request k .part .fits fun u => u.stateMessage n v accepts (act u)) ∧
      ((k ≠ .callCollect ∧ ∀ u b, ∃ t, act u b = enteredReply t b) ∨
        (k = .callCollect ∧ ∀ u b, ∃ t, act u b = .ok t (.callRecord (u.callReport b)))) := by
    simp only [List.mem_cons, Prod.mk.injEq, List.not_mem_nil, or_false] at hmem
    rcases hmem with ⟨rfl, rfl, rfl⟩ | ⟨rfl, rfl, rfl⟩ | ⟨rfl, rfl, rfl⟩ | ⟨rfl, rfl, rfl⟩ | ⟨rfl, rfl, rfl⟩
    · exact ⟨fun u b => (u.startBoarding b).enteredReply b, rfl, .inl ⟨nofun, fun _ _ => ⟨_, rfl⟩⟩⟩
    · exact ⟨fun u b => (settle u (u.enterLastCall b .command) []).enteredReply b, rfl,
        .inl ⟨nofun, fun _ _ => ⟨_, rfl⟩⟩⟩
    · exact ⟨fun u b => (settle u (u.endCall b .castOff .command) []).enteredReply b, rfl,
        .inl ⟨nofun, fun _ _ => ⟨_, rfl⟩⟩⟩
    · exact ⟨fun u b => (settle u (u.endCall b .cancelled .command) []).enteredReply b, rfl,
        .inl ⟨nofun, fun _ _ => ⟨_, rfl⟩⟩⟩
    · exact ⟨fun u b => .ok (u.collected b) (.callRecord (u.callReport b)), rfl,
        .inr ⟨rfl, fun _ _ => ⟨_, rfl⟩⟩⟩
  refine ⟨fun hfield => ?_, ?_⟩
  · rw [hexec]
    exact congrArg Host.Outcome.next (request_refused hrun (stateMessage_badField _ _ _ hfield))
  · rintro b rfl hv
    refine ⟨fun hwrong => ?_, fun haccepts hvessel => ?_⟩
    · rw [hexec]
      exact congrArg Host.Outcome.next (request_refused hrun (stateMessage_wrongState s.beginRequest _ hv hwrong))
    · refine ⟨_, hexec, ?_⟩
      rw [request_fits s k .part _ hrun, stateMessage_accepts s.beginRequest _ hv haccepts hvessel]
      rcases hact with ⟨hk, hact⟩ | ⟨hk, hact⟩
      · obtain ⟨t, ht⟩ := hact s.beginRequest b
        rw [ht]
        exact ⟨_, rfl, rfl, fun _ => rfl, fun h => absurd h hk⟩
      · obtain ⟨t, ht⟩ := hact s.beginRequest b
        rw [ht]
        exact ⟨_, rfl, rfl, fun h => absurd hk h, fun _ => rfl⟩
end

section
/-! How an event ends: its notices in their order, with the HEADROOM notices of the calls it moved, and what the
channels' part keeps. -/

namespace Sys2Proof.Machine

/-- OVER_CAPACITY is queued where the mark is newly set (R28). -/
theorem Call.markNotice_eq (k : Call) (b : Berth) (cause : MarkCause) (held : Nat) :
    k.markNotice b cause held = if (k.markedAt held).overCapacity = true ∧ k.overCapacity = false then
      [.overCapacity b k.vessel cause k.capacity k.aboard held] else [] := by
  unfold markNotice markedAt
  cases k.overCapacity <;> simp

namespace State

/-! ### The notices of an event -/

/-- Where an event's state has first one notice more than the state found, that notice is the event's first. -/
theorem queuesFirst_after {s u t : State} {n : Notice} (hu : u.notices = addNotice s.notices n)
    (ht : u.Extends t) : s.QueuesFirst t n := by
  refine queuesFirst_of s t n ?_
  unfold Extends at ht ⊢
  rwa [queue_notices, ← hu]

/-- Where an event's state has first some notices more than the state found, those are the event's first, in
their order. -/
theorem queuesInOrder_after {s u t : State} {ns : List Notice} (hu : u.notices = ns.foldl addNotice s.notices)
    (ht : u.Extends t) : s.QueuesInOrder t ns := by
  refine queuesInOrder_of s t ns ?_
  unfold Extends at ht ⊢
  rwa [queueAll_notices, ← hu]

/-- The HEADROOM notice of a call whose headroom an event moved between 0 and above 0 (R21). -/
def crossing (before s : State) (b : Berth) : List Notice :=
  if (before.call b).state.isOpen = true ∧ (s.call b).state.isOpen = true ∧
      (before.headroom b = 0 ∧ 0 < s.headroom b ∨ 0 < before.headroom b ∧ s.headroom b = 0) then
    [.headroom b (s.call b).vessel (decide (0 < s.headroom b)) (s.headroom b)]
  else []

theorem crossing_congr {before s t : State} (hk : t.calls = s.calls) (hc : t.claims = s.claims) (b : Berth) :
    crossing before t b = crossing before s b := by
  unfold crossing
  rw [call_congr hk, headroom_congr hk hc]

theorem queueHeadroom_eq (before s : State) (b : Berth) : queueHeadroom before s b = s.queueAll (crossing before s b) := by
  have moved : ((decide (before.headroom b = 0) != decide (s.headroom b = 0)) = true) ↔
      (before.headroom b = 0 ∧ 0 < s.headroom b ∨ 0 < before.headroom b ∧ s.headroom b = 0) := by
    simp only [bne_iff_ne, ne_eq, decide_eq_decide]
    omega
  have hne : decide (s.headroom b ≠ 0) = decide (0 < s.headroom b) := by
    simp only [Nat.pos_iff_ne_zero]
  unfold queueHeadroom crossing
  simp only [Bool.and_eq_true, moved, and_assoc]
  split
  · rw [← hne]
    rfl
  · rfl

theorem queueAll_append (s : State) (ns ms : List Notice) : s.queueAll (ns ++ ms) = (s.queueAll ns).queueAll ms :=
  List.foldl_append

/-- An event ends with the HEADROOM notices of both calls, then those that stand after them, then the channels' part
(R21, R55, R160; assumption 27). -/
theorem settle_eq (before s : State) (after : List Notice) :
    settle before s after =
      (s.queueAll (crossing before s .b0 ++ crossing before s .b1 ++ after)).settleChannels := by
  obtain ⟨q, hq⟩ := queueAll_frame s (crossing before s .b0)
  have second : crossing before (s.queueAll (crossing before s .b0)) .b1 = crossing before s .b1 := by
    rw [hq]
    exact crossing_congr rfl rfl _
  rw [settle, queueHeadroom_eq, queueHeadroom_eq, second, ← queueAll_append, ← queueAll_append, List.append_assoc]

theorem settleChannels_extends (s : State) : s.Extends s.settleChannels :=
  (((settleChannel_extends s .c0).trans (settleChannel_extends _ .c1)).trans
    (settleChannel_extends _ .c2)).trans (settleChannel_extends _ .c3)

/-- The notices that an event queues before it ends, and those it ends with, in their order. -/
theorem settle_inOrder {s u : State} {before : State} {ns after : List Notice}
    (hu : u.notices = ns.foldl addNotice s.notices) :
    s.QueuesInOrder (settle before u after)
      (ns ++ (crossing before u .b0 ++ crossing before u .b1 ++ after)) := by
  rw [settle_eq]
  refine queuesInOrder_after ?_ (settleChannels_extends _)
  rw [queueAll_notices, hu, ← List.foldl_append]

/-- A call that an event leaves as it was, with its seats, has no HEADROOM notice (R21). -/
theorem crossing_same {before s : State} {b : Berth} (h : s.headroom b = before.headroom b) :
    crossing before s b = [] := by
  unfold crossing
  rw [h, if_neg]
  omega

/-- The HEADROOM notices of an event that moves the seats of one call alone (R21). -/
theorem crossings_one {before s : State} {b : Berth} (h : ∀ d, d ≠ b → s.headroom d = before.headroom d) :
    crossing before s .b0 ++ crossing before s .b1 = crossing before s b := by
  cases b with
  | b0 => rw [crossing_same (h .b1 (by decide)), List.append_nil]
  | b1 => rw [crossing_same (h .b0 (by decide)), List.nil_append]

/-- The HEADROOM notice of a call that stays open under its vessel number (R21). -/
theorem crossing_eq {before s : State} {b : Berth} (hbefore : (before.call b).state.isOpen = true)
    (hs : (s.call b).state.isOpen = true) (hvessel : (s.call b).vessel = (before.call b).vessel) :
    crossing before s b = before.headroomNotice s b := by
  simp only [crossing, headroomNotice, hbefore, hs, hvessel, true_and]

theorem numbered_prefix {ns ms : List Notice} (n : Nat) (h : ns <+: ms) : numbered n ns <+: numbered n ms := by
  induction ns generalizing ms n with
  | nil => exact List.nil_prefix
  | cons k ks ih =>
    cases ms with
    | nil => cases List.prefix_nil.mp h
    | cons m ms =>
      obtain ⟨rfl, hrest⟩ := List.cons_prefix_cons.mp h
      exact List.cons_prefix_cons.mpr ⟨rfl, ih _ hrest⟩

/-- The first of an event's notices. -/
theorem queuesFirst_of_inOrder {s t : State} {n : Notice} {ns : List Notice} (h : s.QueuesInOrder t (n :: ns)) :
    s.QueuesFirst t n := by
  obtain ⟨hprefix, hpast⟩ := h _ rfl
  refine ⟨fun room => ?_, fun full => ?_⟩
  · obtain ⟨k, hk⟩ : ∃ k, Config.noticeQueueSize - s.notices.queue.length = k + 1 :=
      ⟨Config.noticeQueueSize - s.notices.queue.length - 1, by omega⟩
    rw [hk, List.take_succ_cons] at hprefix
    refine List.IsPrefix.trans ?_ hprefix
    exact (List.prefix_append_right_inj _).mpr ⟨_, rfl⟩
  · have none : Config.noticeQueueSize - s.notices.queue.length = 0 := Nat.sub_eq_zero_of_le full
    rw [none] at hpast
    obtain ⟨hqueue, hdropped, hseq⟩ := hpast (Nat.zero_lt_succ _)
    have hseq := hseq rfl
    rw [List.take_zero, numbered, List.append_nil] at hqueue
    cases ht : t.notices
    simp_all

/-- The first several of an event's notices. -/
theorem queuesInOrder_prefix {s t : State} {ns ms : List Notice} (h : s.QueuesInOrder t (ns ++ ms)) :
    s.QueuesInOrder t ns := by
  rintro room rfl
  obtain ⟨hprefix, hpast⟩ := h _ rfl
  have takes : ns.take (Config.noticeQueueSize - s.notices.queue.length) <+:
      (ns ++ ms).take (Config.noticeQueueSize - s.notices.queue.length) := by
    rw [List.take_append]
    exact List.prefix_append _ _
  refine ⟨?_, fun past => ?_⟩
  · refine List.IsPrefix.trans ((List.prefix_append_right_inj _).mpr ?_) hprefix
    exact numbered_prefix _ takes
  · have longer : Config.noticeQueueSize - s.notices.queue.length < (ns ++ ms).length := by
      rw [List.length_append]
      omega
    rw [List.take_append_of_le_length (Nat.le_of_lt past)] at hpast
    exact hpast longer

/-! ### What an event's end keeps -/

/-- What an event does before it ends stands after it, but for the notices and what the channels' part changes. -/
theorem settle_queued_frame (before u : State) (ns after : List Notice) : ∃ q a k p,
    settle before (u.queueAll ns) after =
      { u with notices := q, arbiter := a, channels := k, ports := p } := by
  obtain ⟨_, hq⟩ := queueAll_frame u ns
  obtain ⟨q, a, k, p, h⟩ := settle_frame before (u.queueAll ns) after
  exact ⟨q, a, k, p, by rw [h, hq]⟩

theorem framed {t u : State} (h : ∃ q a k p, t = { u with notices := q, arbiter := a, channels := k, ports := p }) :
    t = { u with notices := t.notices, arbiter := t.arbiter, channels := t.channels, ports := t.ports } := by
  obtain ⟨q, a, k, p, rfl⟩ := h
  rfl

/-- A state that has another's fields but for those named has them with the reply at its bus port, too. -/
theorem framed_replied {t u : State} (B : Bus)
    (h : ∃ q a k p, t = { u with notices := q, arbiter := a, channels := k, ports := p }) :
    { t with bus := B } = { u with
      bus := B, notices := t.notices, arbiter := t.arbiter, channels := t.channels, ports := t.ports } := by
  obtain ⟨q, a, k, p, rfl⟩ := h
  rfl

theorem settle_queued_follow (before u : State) (ns after : List Notice) :
    u.ChannelsFollow (settle before (u.queueAll ns) after) := by
  obtain ⟨q, hq⟩ := queueAll_frame u ns
  refine ChannelsFollow.trans ?_ (settle_follow before (u.queueAll ns) after)
  rw [hq]
  exact .same rfl rfl rfl

theorem settle_queued_call (before u : State) (ns after : List Notice) (b : Berth) :
    (settle before (u.queueAll ns) after).call b = u.call b := by
  obtain ⟨_, _, _, _, h⟩ := settle_queued_frame before u ns after
  rw [h]
  rfl

theorem settle_queued_held (before u : State) (ns after : List Notice) (b : Berth) :
    (settle before (u.queueAll ns) after).held b = u.held b := by
  obtain ⟨_, _, _, _, h⟩ := settle_queued_frame before u ns after
  rw [h]
  rfl

theorem settle_queued_headroom (before u : State) (ns after : List Notice) (b : Berth) :
    (settle before (u.queueAll ns) after).headroom b = u.headroom b := by
  rw [headroom, headroom, aboard, aboard, settle_queued_call, settle_queued_held]

/-- The notices that an event queues before it ends, then the HEADROOM notices and those after them (R21). -/
theorem settle_queued_inOrder {s u : State} (before : State) (ns after : List Notice) (hu : u.notices = s.notices) :
    s.QueuesInOrder (settle before (u.queueAll ns) after)
      (ns ++ (crossing before u .b0 ++ crossing before u .b1 ++ after)) := by
  have same : ∀ b, crossing before (u.queueAll ns) b = crossing before u b := by
    obtain ⟨q, hq⟩ := queueAll_frame u ns
    rw [hq]
    exact crossing_congr rfl rfl
  rw [← same, ← same]
  refine settle_inOrder ?_
  rw [queueAll_notices, hu]

theorem settle_claims (before s : State) (after : List Notice) : (settle before s after).claims = s.claims := by
  obtain ⟨_, _, _, _, h⟩ := settle_frame before s after
  rw [h]

theorem settle_headroom (before s : State) (after : List Notice) (b : Berth) :
    (settle before s after).headroom b = s.headroom b :=
  headroom_congr (settle_calls before s after) (settle_claims before s after) b

/-- The CALL_STATE of a call that is not ENDED (R20). -/
theorem queueCallState_eq {s : State} {b : Berth} {k : Call} (hk : s.call b = k) (hst : k.state ≠ .ended)
    (v : Nat) (l : CallState) (cause : CallCause) :
    s.queueCallState b v l cause = s.queueAll
      [.callState b v l k.state cause .none k.aboard (k.capacity - k.aboard - s.held b)] := by
  unfold queueCallState
  simp only [hk, headroom, aboard, if_neg hst]
  rfl

theorem queueIf_eq (s : State) (p : Bool) (n : Notice) : s.queueIf p n = s.queueAll (if p then [n] else []) := by
  unfold queueIf
  cases p <;> rfl

/-- The channels follow from every state with the same channels, ports and arbiter. -/
theorem ChannelsFollow.of_same {s u t : State} (h : u.ChannelsFollow t) (hk : u.channels = s.channels)
    (hp : u.ports = s.ports) (ha : u.arbiter = s.arbiter) : s.ChannelsFollow t :=
  (ChannelsFollow.same hk hp ha).trans h

/-- The bus port has no part in how the channels follow. -/
theorem ChannelsFollow.replied {s t : State} (h : s.beginRequest.ChannelsFollow t) (B : Bus) :
    s.ChannelsFollow { t with bus := B } := ⟨⟨h.gates.gate, h.gates.line⟩, h.desk, h.occupied, h.place⟩

/-- A request that its owner takes, whose effect is `u` with some notices queued: what it leaves of `u`, and the
event's notices in their order. -/
theorem request_settles {s u : State} {kind : MsgKind} {dest : Dest} {act : State → Act} {ns after : List Notice}
    {body : ReplyBody} (hrun : s.power = .running)
    (hact : act s.beginRequest = .ok (settle s.beginRequest (u.queueAll ns) after) body)
    (hbus : u.bus = s.beginRequest.bus) (hnotices : u.notices = s.notices) :
    ∃ t, s.request kind dest .fits act = t ∧
      t = { u with
        bus := s.repliedBus kind dest .ok body
        notices := t.notices, arbiter := t.arbiter, channels := t.channels, ports := t.ports } ∧
      u.ChannelsFollow t ∧
      s.QueuesInOrder t (ns ++ (crossing s.beginRequest u .b0 ++ crossing s.beginRequest u .b1 ++ after)) ∧
      ∀ c, SettledAt t c := by
  have hsettled := settle_settled s.beginRequest (u.queueAll ns) after
  have hframe := settle_queued_frame s.beginRequest u ns after
  have hfollow := settle_queued_follow s.beginRequest u ns after
  have horder := settle_queued_inOrder s.beginRequest ns after hnotices
  generalize settle s.beginRequest (u.queueAll ns) after = settled at hact hframe hfollow horder hsettled
  have hbus' : settled.bus = s.beginRequest.bus := by
    obtain ⟨_, _, _, _, rfl⟩ := hframe
    exact hbus
  exact ⟨_, request_acts hrun hact hbus', framed_replied _ hframe,
    hfollow.trans (.same rfl rfl rfl), horder, fun c =>
      (hsettled c).of_same ⟨rfl, rfl, rfl, rfl, rfl, rfl, rfl⟩ rfl rfl rfl rfl⟩

/-- The reply to an accepted state message carries the state entered (R8). -/
theorem enteredReply_settle (before u : State) (ns after : List Notice) (b : Berth) :
    (settle before (u.queueAll ns) after).enteredReply b =
      .ok (settle before (u.queueAll ns) after) (.entered b (u.call b).state) := by
  rw [enteredReply, settle_queued_call]

end State

end Sys2Proof.Machine
end

section
/-! The call messages that open a call, start boarding, collect a call and correct its figures, and the timers that
report. -/

namespace Sys2Proof.Machine

namespace State

/-! ### CALL_OPEN (R7) -/

theorem actCallOpen_badField (s : State) {n v line capacity declared dwell : Nat}
    (h : 1 < n ∨ v < 1 ∨ 65535 < v ∨ line < 1 ∨ 63 < line ∨ capacity < 1 ∨ 999 < capacity ∨ 999 < declared ∨
      dwell < 30 ∨ 900 < dwell) :
    actCallOpen n v line capacity declared dwell s = .refuse s .badField := by
  unfold actCallOpen
  rcases h with h | h
  · rw [Berth.ofNum?_eq_none h]
  · cases Berth.ofNum? n with
    | none => rfl
    | some b =>
      refine if_pos ?_
      simp only [within, Bool.not_eq_true', Bool.and_eq_false_iff, decide_eq_false_iff_not]
      omega

/-- The notices of a CALL_OPEN: CALL_STATE, and OVER_CAPACITY where the mark is set (R7, R20, R28). -/
def openNotices (s : State) (b : Berth) (v capacity declared : Nat) : List Notice :=
  .callState b v .vacant .alongside .command .none declared (capacity - declared - s.held b) ::
    if capacity < declared then [.overCapacity b v .opened capacity declared (s.held b)] else []

/-- With its fields in range a CALL_OPEN asks for egress inactive and a VACANT record. -/
theorem actCallOpen_inRange (s : State) {b : Berth} {v line capacity declared dwell : Nat}
    (hv : 1 ≤ v ∧ v ≤ 65535) (hl : 1 ≤ line ∧ line ≤ 63) (hc : 1 ≤ capacity ∧ capacity ≤ 999) (hd : declared ≤ 999)
    (hw : 30 ≤ dwell ∧ dwell ≤ 900) :
    actCallOpen b.num v line capacity declared dwell s =
      if s.egress.active then .refuse s .wrongState
      else if (s.call b).state ≠ .vacant then .refuse s .wrongState
      else (settle s ((s.setCall b (s.openedCall v line capacity declared dwell)).queueAll
        (s.openNotices b v capacity declared)) []).enteredReply b := by
  have hfields : (within v 1 65535 && within line 1 63 && within capacity 1 999 && decide (declared ≤ 999) &&
      within dwell 30 900) = true := by
    simp [within, hv, hl, hc, hd, hw]
  have hopened : (s.setCall b (s.openedCall v line capacity declared dwell)).call b =
      s.openedCall v line capacity declared dwell := by
    rw [call_setCall, if_pos rfl]
  rw [actCallOpen, Berth.ofNum?_num]
  dsimp only
  rw [hfields, queueCallState_eq hopened nofun]
  have haboard : ∀ ns, ((s.setCall b (s.openedCall v line capacity declared dwell)).queueAll ns).aboard b = declared ∧
      ((s.setCall b (s.openedCall v line capacity declared dwell)).queueAll ns).held b = s.held b := by
    intro ns
    obtain ⟨q, hq⟩ := queueAll_frame (s.setCall b (s.openedCall v line capacity declared dwell)) ns
    rw [hq]
    exact ⟨congrArg Call.aboard hopened, rfl⟩
  rw [(haboard _).1, (haboard _).2, queueIf_eq, ← queueAll_append]
  simp only [decide_eq_true_eq]
  rfl

/-! ### BOARD_START (R9, R15) -/

theorem setTimers_call (s : State) (b d : Berth) (t : CallTimers) : (s.setTimers b t).call d = s.call d := rfl

theorem startBoarding_eq (s : State) (b : Berth) : s.startBoarding b = settle s
    (((s.setCall b { s.call b with state := .boarding, boardingStarted := s.stamp }).setTimers b
      ⟨some ((s.call b).dwellLimit * 1000), (s.timersOf b).lastCall⟩).queueAll
      [.callState b (s.call b).vessel (s.call b).state .boarding .command .none (s.aboard b) (s.headroom b)]) [] := by
  have hput : ((s.setCall b { s.call b with state := .boarding, boardingStarted := s.stamp }).setTimers b
      ⟨some ((s.call b).dwellLimit * 1000), (s.timersOf b).lastCall⟩).call b =
      { s.call b with state := .boarding, boardingStarted := s.stamp } := by
    rw [setTimers_call, call_setCall, if_pos rfl]
  rw [startBoarding]
  dsimp only
  rw [queueCallState_eq hput nofun]
  rfl

end State

end Sys2Proof.Machine

open Sys2Proof Sys2Proof.Machine Sys2Proof.Machine.State

/-- Settles O26: an accepted CALL_OPEN is one record put in place, with its notices. -/
theorem callOpenEntersAlongside : Obligations.CallOpenEntersAlongside := by
  intro s n v line capacity declared dwell hrun
  refine ⟨fun h => congrArg Host.Outcome.next (request_refused hrun (actCallOpen_badField _ h)), ?_⟩
  rintro b rfl hv hv' hl hl' hc hc' hd hw hw'
  have hact := actCallOpen_inRange s.beginRequest (b := b) ⟨hv, hv'⟩ ⟨hl, hl'⟩ ⟨hc, hc'⟩ hd ⟨hw, hw'⟩
  refine ⟨fun h => congrArg Host.Outcome.next (request_refused hrun (hact.trans ?_)), fun hegress hvacant => ?_⟩
  · rcases h with h | h
    · exact if_pos h
    · rw [if_pos (show (s.beginRequest.call b).state ≠ .vacant from h), ite_self]
  · have hactive : ¬s.beginRequest.egress.active = true := Bool.eq_false_iff.mp hegress
    have hstill : ¬(s.beginRequest.call b).state ≠ .vacant := not_not.mpr hvacant
    rw [if_neg hactive, if_neg hstill, enteredReply_settle, call_setCall, if_pos rfl] at hact
    obtain ⟨t, ht, hframe, hfollow, hnotices, -⟩ := request_settles (kind := .callOpen) (dest := .part) hrun hact rfl rfl
    refine ⟨t, congrArg Host.Outcome.next ht, hframe, hfollow.of_same rfl rfl rfl,
      queuesFirst_of_inOrder hnotices, fun hover => ?_⟩
    rw [openNotices, if_pos hover] at hnotices
    exact queuesInOrder_prefix hnotices

/-- Settles O27: BOARD_START puts the record and its timer in place. -/
theorem boardStartEntersBoarding : Obligations.BoardStartEntersBoarding := by
  intro s b hrun hstate hvessel
  have hact : actBoardStart b.num (s.call b).vessel s.beginRequest =
      (s.beginRequest.startBoarding b).enteredReply b :=
    stateMessage_accepts s.beginRequest _ hvessel (decide_eq_true hstate) rfl
  rw [startBoarding_eq, enteredReply_settle, setTimers_call, call_setCall, if_pos rfl] at hact
  obtain ⟨t, ht, hframe, hfollow, hnotices, -⟩ := request_settles (kind := .boardStart) (dest := .part) hrun hact rfl rfl
  refine ⟨t, congrArg Host.Outcome.next ht, hframe, hfollow.of_same rfl rfl rfl,
      ?_⟩
  have hfirst := queuesFirst_of_inOrder hnotices
  rw [← hstate]
  exact hfirst
end

section
/-! Sweeps over the channels, entry to LAST_CALL, CALL_COLLECT, and ABOARD_ADJUST. -/

namespace Sys2Proof.Machine.State

/-! ### Sweeps over the channels -/

/-- A sweep that, at each channel that meets a test, empties its place in the pending set and else leaves the
places: the test reads what the sweep keeps. -/
theorem foldl_places {s : State} {kept : State → Prop} {test : Chan → Bool} {f : State → Chan → State} (hs : kept s)
    (hstep : ∀ t c, kept t → kept (f t c) ∧ ∀ d, (f t c).arbiter.places.get d =
      if d = c ∧ test c = true then none else t.arbiter.places.get d) (d : Chan) :
    (Chan.all.foldl f s).arbiter.places.get d = if test d = true then none else s.arbiter.places.get d := by
  obtain ⟨k0, p0⟩ := hstep s .c0 hs
  obtain ⟨k1, p1⟩ := hstep _ .c1 k0
  obtain ⟨k2, p2⟩ := hstep _ .c2 k1
  obtain ⟨-, p3⟩ := hstep _ .c3 k2
  show (f (f (f (f s .c0) .c1) .c2) .c3).arbiter.places.get d = _
  rw [p3, p2, p1, p0]
  cases d <;> simp

theorem foldl_follow {f : State → Chan → State} (hstep : ∀ (t : State) c, t.ChannelsFollow (f t c)) (cs : List Chan) (s : State) :
    s.ChannelsFollow (cs.foldl f s) := by
  induction cs generalizing s with
  | nil => exact .same rfl rfl rfl
  | cons c cs ih => exact (hstep s c).trans (ih _)

theorem deliver_arbiter (s : State) (c : Chan) (v : Verdict) : (s.deliver c v).arbiter = s.arbiter := by
  obtain ⟨_, _, h⟩ := deliver_frame s c v
  rw [h]

/-- A refusal empties the channel's place in the pending set (R89). -/
theorem refusePending_places (s : State) (c d : Chan) (code : VerdictCode) :
    (s.refusePending c code).arbiter.places.get d = if d = c then none else s.arbiter.places.get d := by
  unfold refusePending
  split
  · next h =>
    split
    · next hd => rw [hd, h]
    · rfl
  · rw [deliver_arbiter]
    exact PerChan.get_set ..

theorem refusePending_settings (s : State) (c : Chan) (code : VerdictCode) :
    (s.refusePending c code).settings = s.settings := by
  obtain ⟨_, _, _, h⟩ := refusePending_frame s c code
  rw [h]

/-- The places of a berth's channels that meet a test are empty after its refusal (R97, R98). -/
theorem refuseOfBerth_places (s : State) (b : Berth) (code : VerdictCode) (p : Chan → Bool) (d : Chan) :
    (s.refuseOfBerth b code p).arbiter.places.get d =
      if s.berthOf d = some b ∧ p d = true then none else s.arbiter.places.get d := by
  have sweep := foldl_places (s := s) (kept := fun t => t.settings = s.settings)
    (test := fun c => decide (s.berthOf c = some b) && p c)
    (f := fun t c => if t.berthOf c = some b && p c then t.refusePending c code else t) rfl
    (fun t c hkept => by
      have hberth : t.berthOf c = s.berthOf c := by rw [berthOf, berthOf, hkept]
      rw [hberth]
      split
      · next htest =>
        refine ⟨(refusePending_settings t c code).trans hkept, fun d => ?_⟩
        simp only [refusePending_places, htest, and_true]
      · next htest =>
        refine ⟨hkept, fun d => ?_⟩
        rw [if_neg fun h => htest h.2]) d
  rw [refuseOfBerth, sweep]
  simp only [Bool.and_eq_true, decide_eq_true_eq]

theorem refuseOfBerth_follow (s : State) (b : Berth) (code : VerdictCode) (p : Chan → Bool) :
    s.ChannelsFollow (s.refuseOfBerth b code p) := by
  refine foldl_follow (fun t c => ?_) Chan.all s
  split
  · exact refusePending_follow t c code
  · exact .same rfl rfl rfl

theorem refuseOfBerth_notices (s : State) (b : Berth) (code : VerdictCode) (p : Chan → Bool) :
    (s.refuseOfBerth b code p).notices = s.notices := by
  obtain ⟨_, _, _, h⟩ := refuseOfBerth_frame s b code p
  rw [h]

/-- A place that an event has emptied stays empty at its end. -/
theorem settle_places (before s : State) (after : List Notice) (c : Chan) (h : s.arbiter.places.get c = none) :
    (settle before s after).arbiter.places.get c = none := by
  rcases (settle_follow before s after).place c with e | e
  · rw [e, h]
  · exact e

/-! ### CALL_COLLECT (R13) -/

theorem collected_eq (s : State) (b : Berth) : s.collected b = settle s ((s.setCall b .zeroed).queueAll
    [.callState b (s.call b).vessel (s.call b).state .vacant .command .none 0 0]) [] := by
  have hput : (s.setCall b .zeroed).call b = .zeroed := by
    rw [call_setCall, if_pos rfl]
  have hroom : Call.zeroed.capacity - Call.zeroed.aboard - (s.setCall b .zeroed).held b = 0 := Nat.zero_sub _
  rw [collected, queueCallState_eq hput nofun, hroom]
  rfl

/-- A channel derives CLOSED exactly in step 7 of the derivation, with a call that is not open (Table 3-3). -/
theorem deriveState_closed {s : State} {c : Chan} : s.deriveState c = .closed ↔
    (s.egress.active = false ∧ s.egress.latch.get c = none) ∧
    (∃ k, s.callStateOf c = some k ∧ k.isOpen = false) ∧ (s.claimsOf c).live = [] ∧
    (s.chan c).service ≠ .outOfService ∧ (s.port c).line = .up := by
  constructor
  · intro h
    have hno : ¬(s.egress.active || (s.egress.latch.get c).isSome) = true := fun hp => by
      rw [deriveState, if_pos hp] at h
      cases h
    have hegress : s.egress.active = false ∧ s.egress.latch.get c = none := by simpa using hno
    rw [deriveState, if_neg hno] at h
    unfold ordinaryState at h
    split at h
    · split at h <;> cases h
    · next k hk =>
      split at h
      · cases h
      · split at h
        · cases h
        · next hlive =>
          split at h
          · cases h
          · next hserved =>
            have hserved : (s.chan c).service ≠ .outOfService ∧ (s.port c).line = .up := by simpa using hserved
            refine ⟨hegress, ⟨k, hk, ?_⟩, by simpa using hlive, hserved.1, hserved.2⟩
            cases k <;> cases h <;> rfl
  · rintro ⟨⟨hactive, hlatch⟩, ⟨k, hk, hopen⟩, hlive, hservice, hline⟩
    cases k <;> cases hopen <;> simp [deriveState, ordinaryState, hactive, hlatch, hk, hlive, hservice, hline,
      CallState.isOpen]

/-! ### ABOARD_ADJUST (R29, R30) -/

/-- The record after an ABOARD_ADJUST: the arithmetic, and the mark where the delta is above 0 (R29, R30). -/
def adjustedCall (s : State) (b : Berth) (delta : Int) : Call :=
  if 0 < delta then ((s.call b).adjust delta).markedAt (s.held b) else (s.call b).adjust delta

/-- The notice of a mark that an ABOARD_ADJUST sets (R28, R30). -/
def adjustNotices (s : State) (b : Berth) (delta : Int) : List Notice :=
  if 0 < delta then ((s.call b).adjust delta).markNotice b .adjust (s.held b) else []

theorem adjusted_eq (s : State) (b : Berth) (delta : Int) : s.adjusted b delta =
    settle s ((s.setCall b (s.adjustedCall b delta)).queueAll (s.adjustNotices b delta)) [] := by
  unfold adjusted adjustedCall adjustNotices
  by_cases hd : 0 < delta
  · simp only [if_pos hd, markIfOver_setCall]
  · simp only [if_neg hd]
    rfl

/-- The record after an ABOARD_ADJUST, field by field (R29, R30). -/
theorem adjustedCall_fields (s : State) (b : Berth) (delta : Int) :
    ((s.adjustedCall b delta).declared : Int) = min 999 (max 0 ((s.call b).declared + delta)) ∧
    (s.adjustedCall b delta).alighted =
      min (s.call b).alighted ((s.adjustedCall b delta).declared + (s.adjustedCall b delta).boarded.sum) ∧
    (s.adjustedCall b delta).excess =
      (if (s.adjustedCall b delta).declared + (s.adjustedCall b delta).boarded.sum < (s.call b).alighted then
        min ((s.call b).excess + ((s.call b).alighted -
          ((s.adjustedCall b delta).declared + (s.adjustedCall b delta).boarded.sum))) 65535
      else (s.call b).excess) ∧
    (s.adjustedCall b delta).overCapacity = ((s.call b).overCapacity || (decide (0 < delta) &&
      decide ((s.adjustedCall b delta).capacity < (s.adjustedCall b delta).aboard + s.held b))) ∧
    s.adjustedCall b delta = { s.call b with
      declared := (s.adjustedCall b delta).declared
      alighted := (s.adjustedCall b delta).alighted
      excess := (s.adjustedCall b delta).excess
      overCapacity := (s.adjustedCall b delta).overCapacity } := by
  have hdeclared : (((s.call b).adjust delta).declared : Int) = min 999 (max 0 ((s.call b).declared + delta)) := by
    show ((min 999 (max 0 (((s.call b).declared : Int) + delta))).toNat : Int) = _
    omega
  unfold adjustedCall
  by_cases hd : 0 < delta
  · simp only [hd, if_true, decide_true, Bool.true_and]
    exact ⟨hdeclared, rfl, rfl, rfl, rfl⟩
  · simp only [hd, if_false, decide_false, Bool.false_and, Bool.or_false]
    exact ⟨hdeclared, rfl, rfl, rfl, rfl⟩

/-- The mark's notice is queued where an ABOARD_ADJUST newly sets the mark (R28, R30). -/
theorem adjustNotices_eq (s : State) (b : Berth) (delta : Int) : s.adjustNotices b delta =
    if (s.adjustedCall b delta).overCapacity = true ∧ (s.call b).overCapacity = false then
      [.overCapacity b (s.call b).vessel .adjust (s.adjustedCall b delta).capacity (s.adjustedCall b delta).aboard
        (s.held b)]
    else [] := by
  unfold adjustNotices adjustedCall
  by_cases hd : 0 < delta
  · simp only [if_pos hd, Call.markNotice_eq]
    rfl
  · simp only [if_neg hd]
    refine (if_neg fun ⟨hmark, hclear⟩ => ?_).symm
    rw [Call.adjust, hclear] at hmark
    cases hmark

theorem adjusted_call (s : State) (b : Berth) (delta : Int) : (s.adjusted b delta).call b = s.adjustedCall b delta := by
  rw [adjusted_eq, settle_queued_call, call_setCall, if_pos rfl]

theorem adjusted_held (s : State) (b : Berth) (delta : Int) : (s.adjusted b delta).held b = s.held b := by
  rw [adjusted_eq, settle_queued_held]
  rfl

/-- An ABOARD_ADJUST moves the headroom of its call alone (R21). -/
theorem adjusted_crossings {s : State} {b : Berth} (delta : Int) (hopen : (s.call b).state.isOpen = true) :
    crossing s (s.setCall b (s.adjustedCall b delta)) .b0 ++ crossing s (s.setCall b (s.adjustedCall b delta)) .b1 =
      s.headroomNotice (s.setCall b (s.adjustedCall b delta)) b := by
  obtain ⟨-, -, -, -, hrest⟩ := adjustedCall_fields s b delta
  have hput : (s.setCall b (s.adjustedCall b delta)).call b = s.adjustedCall b delta := by
    rw [call_setCall, if_pos rfl]
  rw [crossings_one (b := b), crossing_eq hopen]
  · rw [hput, hrest]
    exact hopen
  · rw [hput, hrest]
  · intro d hd
    simp only [headroom, aboard, call_setCall, if_neg hd]
    rfl

/-! ### The report timer (R22) -/

/-- The COUNT_REPORT of a call that is open (R22). -/
def reportOf (s : State) (b : Berth) : List Notice := if (s.call b).state.isOpen then [s.countReport b] else []

theorem queueReport_eq (s : State) (b : Berth) : s.queueReport b = s.queueAll (s.reportOf b) := queueIf_eq ..

/-- The run-out of the report timer with a period queues the reports of the open calls, berth 0 first, and restarts
the timer (R22). -/
theorem exec_reportTimerExpiry {s : State} (hrun : s.power = .running) (htimer : s.reportTimer = some 0)
    (hperiod : 0 < s.cfg.countReportPeriod) : exec .reportTimerExpiry s = .next
      { s.queueAll (s.reportOf .b0 ++ s.reportOf .b1) with
        reportTimer := some (s.cfg.countReportPeriod * 1000) } := by
  have hout : ¬(!ranOut s.reportTimer) = true := by
    rw [htimer]
    decide
  have hne : ¬s.cfg.countReportPeriod = 0 := Nat.pos_iff_ne_zero.mp hperiod
  have second : (s.queueAll (s.reportOf .b0)).reportOf .b1 = s.reportOf .b1 := by
    obtain ⟨_, h⟩ := queueAll_frame s (s.reportOf .b0)
    rw [h]
    rfl
  refine congrArg Host.Outcome.next ((whenRunning_running hrun _).trans ((if_neg hout).trans ((if_neg hne).trans ?_)))
  rw [queueReport_eq, queueReport_eq, second, ← queueAll_append, periodTimer, if_neg hne]

/-! ### Entry to LAST_CALL (R16, R98) -/

/-- The record and the timers of a call in LAST_CALL (R16). -/
def lastCalled (s : State) (b : Berth) : State :=
  (s.setCall b { s.call b with state := .lastCall, lastCallAt := s.stamp }).setTimers b
    ⟨none, some (s.cfg.lastCallLimit * 1000)⟩

theorem lastCalled_call (s : State) (b : Berth) :
    (s.lastCalled b).call b = { s.call b with state := .lastCall, lastCallAt := s.stamp } := by
  rw [lastCalled, setTimers_call, call_setCall, if_pos rfl]

theorem enterLastCall_eq (s : State) (b : Berth) (cause : CallCause) : s.enterLastCall b cause =
    ((s.lastCalled b).queueAll [.callState b (s.call b).vessel (s.call b).state .lastCall cause .none
      (s.aboard b) (s.headroom b)]).refuseOfBerth b .notBoarding
        fun c => s.cfg.level.get c ≤ s.cfg.lastCallLevel := by
  have hcfg : ∀ ns, ((s.lastCalled b).queueAll ns).cfg = s.cfg := by
    intro ns
    obtain ⟨_, h⟩ := queueAll_frame (s.lastCalled b) ns
    rw [h]
    rfl
  have hqueue := queueCallState_eq (s.lastCalled_call b) nofun (s.call b).vessel (s.call b).state cause
  show ((s.lastCalled b).queueCallState b (s.call b).vessel (s.call b).state cause).refuseOfBerth b .notBoarding
    (fun c => ((s.lastCalled b).queueCallState b (s.call b).vessel (s.call b).state cause).cfg.level.get c ≤
      ((s.lastCalled b).queueCallState b (s.call b).vessel (s.call b).state cause).cfg.lastCallLevel) = _
  rw [hqueue, hcfg]
  rfl

/-- What the entry of a call to LAST_CALL leaves when the event has ended. -/
theorem enterLastCall_settles (s : State) (b : Berth) (cause : CallCause) :
    (∃ q a k p, settle s (s.enterLastCall b cause) [] = { s.lastCalled b with
      notices := q, arbiter := a, channels := k, ports := p }) ∧
    s.ChannelsFollow (settle s (s.enterLastCall b cause) []) ∧
    (∀ c, s.berthOf c = some b → s.cfg.level.get c ≤ s.cfg.lastCallLevel →
      (settle s (s.enterLastCall b cause) []).arbiter.places.get c = none) ∧
    s.QueuesFirst (settle s (s.enterLastCall b cause) []) (.callState b (s.call b).vessel (s.call b).state .lastCall
      cause .none (s.aboard b) (s.headroom b)) := by
  rw [enterLastCall_eq]
  obtain ⟨q, hq⟩ := queueAll_frame (s.lastCalled b) [.callState b (s.call b).vessel (s.call b).state .lastCall cause
    .none (s.aboard b) (s.headroom b)]
  have hnotices := queueAll_notices (s.lastCalled b) [.callState b (s.call b).vessel (s.call b).state .lastCall cause
    .none (s.aboard b) (s.headroom b)]
  generalize hqueued : (s.lastCalled b).queueAll [.callState b (s.call b).vessel (s.call b).state .lastCall cause
    .none (s.aboard b) (s.headroom b)] = queued at hq hnotices ⊢
  generalize hp : (fun c => decide (s.cfg.level.get c ≤ s.cfg.lastCallLevel)) = p
  have hberth : queued.berthOf = s.berthOf := by rw [hq]; rfl
  refine ⟨?_, ?_, fun c hc hlevel => settle_places _ _ _ c ?_, queuesFirst_after (u := queued) hnotices ?_⟩
  · obtain ⟨_, _, _, hr⟩ := refuseOfBerth_frame queued b .notBoarding p
    obtain ⟨_, _, _, _, h⟩ := settle_frame s (queued.refuseOfBerth b .notBoarding p) []
    rw [h, hr, hq]
    exact ⟨_, _, _, _, rfl⟩
  · refine ChannelsFollow.of_same ((refuseOfBerth_follow queued b _ p).trans (settle_follow s _ [])) ?_ ?_ ?_ <;>
      rw [hq] <;> rfl
  · rw [refuseOfBerth_places, hberth, ← hp, if_pos ⟨hc, decide_eq_true hlevel⟩]
  · exact (Extends.of_eq (refuseOfBerth_notices queued b _ p)).trans (settle_extends s _ [])

end Sys2Proof.Machine.State

open Sys2Proof Sys2Proof.Machine Sys2Proof.Machine.State

/-- Settles O28: the message and the run-out make one entry to LAST_CALL. -/
theorem lastCallIsEntered : Obligations.LastCallIsEntered := by
  intro s b i bus cause hrun hstate h
  rcases h with ⟨rfl, hvessel, rfl, rfl⟩ | ⟨rfl, htimer, rfl, rfl⟩
  · have hact : actLastCall b.num (s.call b).vessel s.beginRequest =
        (settle s.beginRequest (s.beginRequest.enterLastCall b .command) []).enteredReply b :=
      stateMessage_accepts s.beginRequest _ hvessel (decide_eq_true hstate) rfl
    obtain ⟨hframe, hfollow, hplaces, hfirst⟩ := enterLastCall_settles s.beginRequest b .command
    generalize settle s.beginRequest (s.beginRequest.enterLastCall b .command) [] = settled at *
    have hbody : (settled.call b).state = .lastCall := by
      obtain ⟨q, a, k, p, rfl⟩ := hframe
      exact congrArg Call.state (lastCalled_call s.beginRequest b)
    have hbus : settled.bus = s.beginRequest.bus := by
      obtain ⟨q, a, k, p, rfl⟩ := hframe
      rfl
    rw [enteredReply, hbody] at hact
    exact ⟨_, congrArg Host.Outcome.next (request_acts hrun hact hbus), framed_replied _ hframe,
      hfollow.replied _, hplaces, hstate ▸ hfirst⟩
  · obtain ⟨hframe, hfollow, hplaces, hfirst⟩ := enterLastCall_settles s b .timed
    refine ⟨_, congrArg Host.Outcome.next ((whenRunning_running hrun _).trans (if_pos ?_)), framed hframe, hfollow,
      hplaces, hstate ▸ hfirst⟩
    rw [htimer, hstate]
    rfl

/-- Settles O30: the reply is made of the record found, and a CLOSED channel's inputs change from one call that is
not open to another. -/
theorem callCollectZeroesTheRecord : Obligations.CallCollectZeroesTheRecord := by
  intro s b hrun hvessel
  refine ⟨fun hended => ?_, fun hstate => ?_⟩
  · have hact : actCallCollect b.num (s.call b).vessel s.beginRequest =
        .ok (s.beginRequest.collected b) (.callRecord (s.callReport b)) :=
      stateMessage_accepts s.beginRequest _ hvessel (decide_eq_true hended) rfl
    rw [collected_eq] at hact
    obtain ⟨t, ht, hframe, hfollow, hnotices, hsettled⟩ := request_settles (kind := .callCollect) (dest := .part) hrun hact rfl rfl
    refine ⟨t, congrArg Host.Outcome.next ht, hframe, hfollow.of_same rfl rfl rfl, ?_,
      hended ▸ queuesFirst_of_inOrder hnotices⟩
    intro hderived c hc hclosed
    have hfound := hclosed ▸ (hderived hrun c).1
    obtain ⟨hegress, -, hlive, hservice, hline⟩ := deriveState_closed.mp hfound.symm
    obtain ⟨hgates, -, -, -⟩ := hfollow
    rw [(hsettled c).state]
    refine deriveState_closed.mpr ⟨?_, ⟨.vacant, ?_, rfl⟩, ?_, ?_, ?_⟩
    · rw [hframe]
      exact hegress
    · have hberth : t.berthOf c = some b := by rw [hframe]; exact hc
      have hcall : t.call b = .zeroed := by rw [hframe]; exact (call_setCall s b b .zeroed).trans (if_pos rfl)
      rw [callStateOf, hberth, Option.map_some, hcall]
      rfl
    · rw [hframe]
      exact hlive
    · rw [(hgates.gate c).service]
      exact hservice
    · rw [(hgates.line c).line]
      exact hline
  · have hact : actCallCollect b.num (s.call b).vessel s.beginRequest = .refuse s.beginRequest .wrongState :=
      stateMessage_wrongState s.beginRequest _ hvessel (.inl (decide_eq_false hstate))
    exact congrArg Host.Outcome.next (request_refused hrun hact)

/-- Settles O31: the arithmetic, the mark and the HEADROOM notice are those of one record put in place. -/
theorem aboardAdjustAdjusts : Obligations.AboardAdjustAdjusts := by
  intro s n v delta hrun
  refine ⟨fun h => congrArg Host.Outcome.next (request_refused hrun ?_), ?_⟩
  · unfold actAboardAdjust
    by_cases hd : delta < -999 ∨ 999 < delta
    · exact if_pos hd
    · rw [if_neg hd]
      refine stateMessage_badField _ _ _ ?_
      omega
  · rintro b rfl hv hlo hhi
    have hd : ¬(delta < -999 ∨ 999 < delta) := by omega
    refine ⟨fun h => congrArg Host.Outcome.next (request_refused hrun ((if_neg hd).trans
      (stateMessage_wrongState s.beginRequest _ hv h))), fun hopen hvessel => ?_⟩
    have hact : actAboardAdjust b.num v delta s.beginRequest = _ :=
      (if_neg hd).trans (stateMessage_accepts s.beginRequest _ hv hopen hvessel)
    simp only [headroom, aboard, adjusted_call, adjusted_held] at hact
    rw [adjusted_eq] at hact
    obtain ⟨t, ht, hframe, hfollow, hnotices, -⟩ := request_settles (kind := .aboardAdjust) (dest := .part) hrun hact rfl rfl
    obtain ⟨hdeclared, halighted, hexcess, hmark, hrest⟩ := adjustedCall_fields s b delta
    refine ⟨t, s.adjustedCall b delta, congrArg Host.Outcome.next ht, ?_, hframe, hfollow.of_same rfl rfl rfl,
      hdeclared, halighted, hexcess, hmark, hrest, ?_⟩
    · rw [hframe]
      exact (call_setCall s b b _).trans (if_pos rfl)
    · have hroom : (s.beginRequest.setCall b (s.beginRequest.adjustedCall b delta)).headroom b = t.headroom b := by
        rw [hframe]
        rfl
      rw [adjusted_crossings delta (s := s.beginRequest) hopen, List.append_nil, headroomNotice, hroom,
        adjustNotices_eq] at hnotices
      rw [← hvessel]
      exact hnotices

/-- Settles O32: the run-outs queue the reports of the open calls, and the OBSTRUCTED of the channel. -/
theorem timersThatReport : Obligations.TimersThatReport := by
  refine ⟨?_, fun s c hrun htimer => ?_⟩
  · rintro s hrun htimer report rfl
    refine ⟨fun hperiod => ?_, fun hperiod => ?_, fun b hperiod hopen hfirst => ?_⟩
    · have hout : ¬(!ranOut s.reportTimer) = true := by
        rw [htimer]
        decide
      exact congrArg Host.Outcome.next ((whenRunning_running hrun _).trans ((if_neg hout).trans (if_pos hperiod)))
    · refine ⟨_, exec_reportTimerExpiry hrun htimer hperiod, ?_, fun hclosed => ?_⟩
      · obtain ⟨q, h⟩ := queueAll_frame s (s.reportOf .b0 ++ s.reportOf .b1)
        rw [h]
      · rw [reportOf, reportOf, hclosed, hclosed]
        rfl
    · have horder : s.QueuesInOrder { s.queueAll (s.reportOf .b0 ++ s.reportOf .b1) with
          reportTimer := some (s.cfg.countReportPeriod * 1000) } (s.reportOf .b0 ++ s.reportOf .b1) :=
        queuesInOrder_after (queueAll_notices _ _) (.of_eq rfl)
      refine ⟨_, exec_reportTimerExpiry hrun htimer hperiod, ?_, ?_⟩
      · obtain ⟨rest, hreports⟩ : ∃ rest, s.reportOf .b0 ++ s.reportOf .b1 = s.countReport b :: rest := by
          cases b with
          | b0 => exact ⟨_, congrArg (· ++ s.reportOf .b1) (if_pos hopen)⟩
          | b1 =>
            have none : s.reportOf .b0 = [] := if_neg (Bool.eq_false_iff.mp (hfirst rfl))
            exact ⟨[], by rw [none, List.nil_append]; exact if_pos hopen⟩
        rw [hreports] at horder ⊢
        exact queuesFirst_of_inOrder horder
      · rintro rfl hopen' hroom
        have hreports : s.reportOf .b0 ++ s.reportOf .b1 = [s.countReport .b0, s.countReport .b1] :=
          congrArg₂ (· ++ ·) (if_pos hopen) (if_pos hopen')
        obtain ⟨k, hk⟩ : ∃ k, Config.noticeQueueSize - s.notices.queue.length = k + 2 :=
          ⟨Config.noticeQueueSize - s.notices.queue.length - 2, by simp only [Config.noticeQueueSize]; omega⟩
        have hqueue := (addNotices_queue s.notices [s.countReport .b0, s.countReport .b1] _ rfl).1
        rw [hk, List.take_succ_cons, List.take_succ_cons, List.take_nil] at hqueue
        rw [hreports]
        exact (congrArg NoticeQueue.queue (queueAll_notices s _)).trans hqueue
  · have hout : ¬(!ranOut (s.chan c).obstructionTimer) = true := by
      rw [htimer]
      decide
    refine ⟨_, congrArg Host.Outcome.next ((whenRunning_running hrun _).trans (if_neg hout)), ?_,
      queuesFirst_of s _ _ ⟨[], ?_⟩⟩
    · rw [queue_eq]
      rfl
    · rw [queue_notices, queue_notices]
      rfl
end

section
/-! CHANNEL_RELEASE: its tests in order, and the STAFF claim it grants. -/

namespace Sys2Proof.Machine.State

/-! ### The tests (R50) -/

theorem releaseRefusal_wrongState {s : State} {c : Chan} {b : Berth} (force : Bool)
    (h : s.egress.active = true ∨ (s.call b).state.isBoarding = false ∨ (s.chan c).state = .suspended ∨
      (s.chan c).state = .egressHeld ∨ Config.claimsPerChannel ≤ (s.claimsOf c).count) :
    s.releaseRefusal c b force = some .wrongState := by
  unfold releaseRefusal
  rcases h with h | h | h | h | h <;> simp [h]

theorem releaseRefusal_noRoom {s : State} {c : Chan} {b : Berth} (hactive : s.egress.active = false)
    (hboarding : (s.call b).state.isBoarding = true) (hsuspended : (s.chan c).state ≠ .suspended)
    (hheld : (s.chan c).state ≠ .egressHeld) (hroom : (s.claimsOf c).count < Config.claimsPerChannel)
    (hfull : s.headroom b = 0) : s.releaseRefusal c b false = some .noRoom := by
  simp [releaseRefusal, hactive, hboarding, hsuspended, hheld, Nat.not_le.mpr hroom, hfull]

theorem actChannelRelease_badField (s : State) {n : Nat} {force : Option Bool} (h : 3 < n ∨ force = none) :
    actChannelRelease n force s = .refuse s .badField := by
  unfold actChannelRelease
  rcases h with h | rfl
  · rw [Chan.ofNum?_eq_none h]
  · cases Chan.ofNum? n <;> rfl

/-- A release at a channel of a berth asks its tests, and grants its seat (R50, R51). -/
theorem actChannelRelease_num {s : State} {c : Chan} {b : Berth} (force : Bool) (hb : s.berthOf c = some b) :
    actChannelRelease c.num (some force) s = match s.releaseRefusal c b force with
      | some code => .refuse s code
      | none => .ok (s.releaseSeat c b force) (.released c b ((s.releaseSeat c b force).headroom b)
        (s.claimsOf c).live.length ((s.releaseSeat c b force).call b).overCapacity) := by
  unfold actChannelRelease
  rw [Chan.ofNum?_num]
  dsimp only
  rw [hb] <;> rfl

theorem actChannelRelease_unassigned {s : State} {c : Chan} (force : Bool) (hb : s.berthOf c = none) :
    actChannelRelease c.num (some force) s = .refuse s .wrongState := by
  unfold actChannelRelease
  rw [Chan.ofNum?_num]
  dsimp only
  rw [hb]

/-! ### The grant (R51) -/

/-- The record of a call after a staff release, which may set the mark where it is forced (R51). -/
def releasedCall (s : State) (b : Berth) (force : Bool) : Call :=
  if force then (s.call b).markedAt (s.held b + 1) else s.call b

/-- A staff release but for its notices (R51). -/
def released (s : State) (c : Chan) (b : Berth) (force : Bool) : State :=
  (s.setClaims c (s.staffClaims c b)).setCall b (s.releasedCall b force)

theorem released_held (s : State) (c : Chan) (b d : Berth) (force : Bool) :
    (s.released c b force).held d = s.held d + if d = b then 1 else 0 := by
  have h := held_setClaims s c (s.staffClaims c b) d
  rw [staffClaims_heldOn] at h
  show (s.setClaims c (s.staffClaims c b)).held d = _
  omega

theorem released_call (s : State) (c : Chan) (b : Berth) (force : Bool) :
    (s.released c b force).call b = s.releasedCall b force := by
  rw [released, call_setCall, if_pos rfl]

/-- The OVER_CAPACITY notice of a staff release that sets the mark (R51). -/
def releaseNotices (s : State) (b : Berth) (force : Bool) : List Notice :=
  if (s.releasedCall b force).overCapacity = true ∧ (s.call b).overCapacity = false then
    [.overCapacity b (s.call b).vessel .staff (s.call b).capacity (s.aboard b) (s.held b + 1)]
  else []

theorem releaseSeat_settles {s : State} {c : Chan} {b : Berth} {force : Bool} (hb : s.berthOf c = some b)
    (h : s.releaseRefusal c b force = none) : s.releaseSeat c b force =
      settle s ((s.released c b force).queueAll (s.releaseNotices b force)) [] := by
  have hheld : (s.setClaims c (s.staffClaims c b)).held b = s.held b + 1 := by
    rw [← if_pos (rfl : b = b) (c := b = b) (t := 1) (e := 0), ← released_held s c b b force]
    rfl
  rw [releaseSeat_eq hb h]
  refine congrArg (settle s · []) ?_
  cases force with
  | true =>
    rw [if_pos rfl, markIfOver_eq, hheld, Call.markNotice_eq]
    rfl
  | false =>
    have hno : ¬((s.call b).overCapacity = true ∧ (s.call b).overCapacity = false) := by
      rintro ⟨hmark, hclear⟩
      rw [hmark] at hclear
      cases hclear
    have hput : (s.setClaims c (s.staffClaims c b)).setCall b (s.call b) = s.setClaims c (s.staffClaims c b) :=
      setCall_self (s.setClaims c (s.staffClaims c b)) b
    rw [if_neg (by decide), releaseNotices]
    simp only [releasedCall, released, Bool.false_eq_true, if_false, hput, if_neg hno]
    rfl

/-- The STAFF claim joins the tail of the live queue, with a full window where it becomes head (R40, R51). -/
theorem staffClaims_live (s : State) (c : Chan) (b : Berth) : (s.staffClaims c b).live =
    (s.claimsOf c).live ++ [⟨b, .staff, 1, 0, none, 0, none, none, s.uptimeSecs,
      if (s.claimsOf c).live = [] then s.cfg.passWindow.get c * 1000 else 0⟩] := by
  unfold staffClaims
  cases (s.claimsOf c).live <;> rfl

/-- A staff release crosses the headroom exactly where it takes the last seat of it (R21, R51). -/
theorem released_crossings {s : State} {c : Chan} {b : Berth} {force : Bool} (hopen : (s.call b).state.isOpen = true) :
    crossing s (s.released c b force) .b0 ++ crossing s (s.released c b force) .b1 =
      if s.headroom b = 1 then [.headroom b (s.call b).vessel false 0] else [] := by
  have hsame : (s.releasedCall b force).state = (s.call b).state ∧
      (s.releasedCall b force).vessel = (s.call b).vessel ∧
      (s.releasedCall b force).capacity = (s.call b).capacity ∧
      (s.releasedCall b force).aboard = (s.call b).aboard := by
    cases force <;> exact ⟨rfl, rfl, rfl, rfl⟩
  obtain ⟨hstate, hvessel, hcapacity, haboard⟩ := hsame
  have hroom : (s.released c b force).headroom b = s.headroom b - 1 := by
    have hheld := released_held s c b b force
    rw [if_pos rfl] at hheld
    rw [headroom, headroom, aboard, aboard, released_call, hheld, hcapacity, haboard]
    omega
  rw [crossings_one (b := b), crossing, released_call, hstate, hvessel, hroom]
  · by_cases hone : s.headroom b = 1
    · simp [hone, hopen]
    · rw [if_neg hone, if_neg]
      omega
  · intro d hd
    have hheld := released_held s c b d force
    rw [if_neg hd] at hheld
    rw [headroom, headroom, aboard, aboard, hheld, released, call_setCall, if_neg hd]
    rfl

end Sys2Proof.Machine.State

open Sys2Proof Sys2Proof.Machine Sys2Proof.Machine.State

/-- Settles O34: the request for one seat is granted by the tests, and the event is one claim and at most one mark. -/
theorem channelReleaseGrantsAStaffSeat : Obligations.ChannelReleaseGrantsAStaffSeat := by
  intro s hrun
  refine ⟨fun n force h => congrArg Host.Outcome.next (request_refused hrun (actChannelRelease_badField _ h)),
    fun c force => ⟨fun h => congrArg Host.Outcome.next (request_refused hrun ?_),
      fun b hactive hb hboarding hsuspended hheld hroom => ⟨?_, fun hseat => ?_⟩⟩⟩
  · cases hb : s.berthOf c with
    | none => exact actChannelRelease_unassigned force (s := s.beginRequest) hb
    | some b =>
      have href : s.beginRequest.releaseRefusal c b force = some .wrongState :=
        releaseRefusal_wrongState force (h.imp_right (Or.imp_left fun hall => hall b hb))
      rw [actChannelRelease_num force (s := s.beginRequest) hb, href]
  · rintro rfl hfull
    have href : s.beginRequest.releaseRefusal c b false = some .noRoom :=
      releaseRefusal_noRoom hactive hboarding hsuspended hheld hroom hfull
    refine congrArg Host.Outcome.next (request_refused hrun ?_)
    rw [actChannelRelease_num false (s := s.beginRequest) hb, href]
  · have href : s.beginRequest.releaseRefusal c b force = none :=
      releaseRefusal_eq_none.mpr ⟨hactive, hboarding, hsuspended, hheld, hroom, hseat⟩
    have hact := actChannelRelease_num force (s := s.beginRequest) hb
    rw [href, releaseSeat_settles (s := s.beginRequest) hb href] at hact
    simp only [settle_queued_headroom, settle_queued_call, released_call] at hact
    obtain ⟨t, ht, hframe, hfollow, hnotices, -⟩ := request_settles (kind := .channelRelease) (dest := .part) hrun hact
      rfl rfl
    have hroom : (s.beginRequest.released c b force).headroom b = t.headroom b := by
      rw [hframe]
      rfl
    have hopen : (s.call b).state.isOpen = true := isOpen_of_isBoarding hboarding
    have hlive : s.beginRequest.staffClaims c b = { s.claimsOf c with live := (s.staffClaims c b).live } := rfl
    refine ⟨t, s.releasedCall b force, congrArg Host.Outcome.next ht, ?_, hfollow.of_same rfl rfl rfl, ?_, ?_⟩
    · rw [← hroom, ← staffClaims_live]
      exact hframe
    · cases force <;> simp [releasedCall, Call.markedAt, aboard, Nat.add_assoc]
    · rw [released_crossings (s := s.beginRequest) hopen, List.append_nil, releaseNotices] at hnotices
      have hkept : (s.releasedCall b force).vessel = (s.call b).vessel ∧
          (s.releasedCall b force).capacity = (s.call b).capacity := by
        cases force <;> exact ⟨rfl, rfl⟩
      rw [hkept.1, hkept.2]
      exact hnotices
end

section
/-! The end of claims written out on the lists it changes, what a selection leaves, and what an event's end makes of
a channel. The run-out of the suspension timer. -/

namespace Sys2Proof.Machine.State

/-! ### The end of claims (R38, R42, R48, R49) -/

/-- The part of the state that ending claims changes beyond the claim table: the allotments and the journey list. -/
def withLists (s : State) (allot : List Allotment) (journey : List JourneyEntry) : State :=
  { s with tables := { s.tables with allot := allot }, engine := { s.engine with journey := journey } }

theorem lapseEffects_eq (s : State) (k : Claim) :
    s.lapseEffects k = s.withLists (allotReturned s.tables.allot k) (journeyLapsed s.engine.journey k) := by
  unfold lapseEffects returnSeats modClaimAllot recordLapse allotReturned journeyLapsed
  cases k.allot <;> cases k.card <;> rfl

theorem unknownEffects_eq (s : State) (c : Chan) (k : Claim) : s.unknownEffects c k =
    s.withLists (allotReturned s.tables.allot k) (s.journeyUnknown c s.engine.journey k) := by
  unfold unknownEffects returnSeats modClaimAllot recordWrite allotReturned journeyUnknown
  cases k.allot <;> cases k.card <;> cases k.tag <;> rfl

theorem foldl_lapseEffects (ks : List Claim) (s : State) : ks.foldl lapseEffects s =
    s.withLists (ks.foldl allotReturned s.tables.allot) (ks.foldl journeyLapsed s.engine.journey) := by
  induction ks generalizing s with
  | nil => rfl
  | cons k ks ih =>
    rw [List.foldl_cons, ih, lapseEffects_eq]
    rfl

theorem foldl_unknownEffects (c : Chan) (ks : List Claim) (s : State) :
    ks.foldl (fun t x => t.unknownEffects c x) s =
      s.withLists (ks.foldl allotReturned s.tables.allot) (ks.foldl (s.journeyUnknown c) s.engine.journey) := by
  induction ks generalizing s with
  | nil => rfl
  | cons k ks ih =>
    rw [List.foldl_cons, ih, unknownEffects_eq]
    rfl

/-- The claims of a channel that end together: they leave the claim table, and the allotments and the journey list
are those of their ends (R48, R49). -/
theorem endClaims_eq (s : State) (c : Chan) (p : Claim → Bool) : s.endClaims c p =
    (s.setClaims c ⟨(s.claimsOf c).live.filter fun k => !p k, (s.claimsOf c).provisional.filter fun k => !p k⟩).withLists
      (s.allotEnded p s.tables.allot c) (s.journeyEnded p s.engine.journey c) := by
  unfold endClaims
  dsimp only
  rw [foldl_lapseEffects, foldl_unknownEffects]
  rfl

/-! ### A selection (R92 to R94) -/

theorem select_gates (s : State) : s.GatesKept s.select := by
  unfold select
  split
  · exact .same rfl rfl
  · split
    · exact .same rfl rfl
    · next k _ =>
      unfold handOver
      split
      · next c _ =>
        split
        · exact .same rfl rfl
        · refine ⟨fun d => ?_, fun d => .same _⟩
          show (s.chan d).SameGate (((s.setTallies c _).chan d))
          rw [chan_setTallies]
          split
          · next hd =>
            subst hd
            exact ⟨rfl, rfl, rfl, rfl, rfl, rfl, rfl, rfl, rfl, rfl, rfl, rfl, rfl⟩
          · exact .same _
      · split <;> exact .same rfl rfl

/-- A selection changes of a channel the tally of presentations taken alone (R94). -/
theorem select_chan (s : State) (c : Chan) : ∃ n, s.select.chan c =
    { s.chan c with tallies := { (s.chan c).tallies with taken := n } } := by
  unfold select
  split
  · exact ⟨_, rfl⟩
  · split
    · exact ⟨_, rfl⟩
    · next k _ =>
      unfold handOver
      split
      · next d _ =>
        split
        · exact ⟨_, rfl⟩
        · show ∃ n, (s.setTallies d _).chan c = _
          rw [chan_setTallies]
          split
          · next hd =>
            subst hd
            exact ⟨_, rfl⟩
          · exact ⟨_, rfl⟩
      · split <;> exact ⟨_, rfl⟩

theorem select_notices (s : State) : s.select.notices = s.notices := by
  obtain ⟨_, _, _, h⟩ := select_frame s
  rw [h]

/-! ### A channel after an event (R54, R55, R62, R63) -/

theorem settleChannel_chan_other (s : State) {c d : Chan} (hd : d ≠ c) :
    ∃ t, (s.settleChannel c).chan d = { s.chan d with tallies := t } := by
  obtain ⟨t, ht⟩ := tellArbiter_chan s (reportState s (s.takeState c) c) c d
  obtain ⟨q, hq⟩ := reportState_frame s (s.takeState c) c
  obtain ⟨u, hu⟩ := showMode_other (tellArbiter s (reportState s (s.takeState c) c) c) c d hd
  have htaken : (reportState s (s.takeState c) c).chan d = s.chan d := by
    rw [hq]
    exact (chan_setChan ..).trans (if_neg hd)
  exact ⟨u, by rw [settleChannel, hu, ht, htaken]⟩

theorem settleChannel_chan_self (s : State) (c : Chan) :
    ∃ m t, (s.settleChannel c).chan c = { (s.takeState c).chan c with modeShown := m, tallies := t } := by
  obtain ⟨t, ht⟩ := tellArbiter_chan s (reportState s (s.takeState c) c) c c
  obtain ⟨q, hq⟩ := reportState_frame s (s.takeState c) c
  obtain ⟨m, u, hu⟩ := showMode_chan (tellArbiter s (reportState s (s.takeState c) c) c) c c
  have htaken : (reportState s (s.takeState c) c).chan c = (s.takeState c).chan c := by
    rw [hq]
    rfl
  exact ⟨m, u, by rw [settleChannel, hu, ht, htaken]⟩

/-- What a channel takes as its state depends on its inputs alone. -/
theorem takeState_chan {s t : State} {c : Chan} {tallies : Tallies} (hi : SameInputs s t c)
    (hc : t.chan c = { s.chan c with tallies := tallies }) :
    (t.takeState c).chan c = { (s.takeState c).chan c with tallies := tallies } := by
  have hcfg : t.cfg = s.cfg := by rw [cfg, cfg, hi.settings]
  simp only [takeState, chan_setChan, if_true, hi.deriveState, hi.lines, hc, hcfg]

theorem settleChannels_chan (s : State) (c : Chan) :
    ∃ m t, s.settleChannels.chan c = { (s.takeState c).chan c with modeShown := m, tallies := t } := by
  have later : ∀ {u v : State} {d : Chan}, c ≠ d → (∃ m t, u.chan c = { v.chan c with modeShown := m, tallies := t }) →
      ∃ m t, (u.settleChannel d).chan c = { v.chan c with modeShown := m, tallies := t } := by
    rintro u v d hd ⟨m, t, h⟩
    obtain ⟨t', h'⟩ := settleChannel_chan_other u hd
    exact ⟨m, t', by rw [h', h]⟩
  have now : ∀ {u : State}, SameInputs s u c → (∃ t, u.chan c = { s.chan c with tallies := t }) →
      ∃ m t, (u.settleChannel c).chan c = { (s.takeState c).chan c with modeShown := m, tallies := t } := by
    rintro u hi ⟨t, h⟩
    obtain ⟨m, t', h'⟩ := settleChannel_chan_self u c
    exact ⟨m, t', by rw [h', takeState_chan hi h]⟩
  have earlier : ∀ {u : State} {d : Chan}, c ≠ d → (∃ t, u.chan c = { s.chan c with tallies := t }) →
      ∃ t, (u.settleChannel d).chan c = { s.chan c with tallies := t } := by
    rintro u d hd ⟨t, h⟩
    obtain ⟨t', h'⟩ := settleChannel_chan_other u hd
    exact ⟨t', by rw [h', h]⟩
  have same0 := settleChannel_same s .c0 c
  have same1 := same0.trans (settleChannel_same _ .c1 c)
  have same2 := same1.trans (settleChannel_same _ .c2 c)
  unfold settleChannels
  cases c with
  | c0 =>
    exact later (by decide) (later (by decide) (later (by decide) (now ⟨rfl, rfl, rfl, rfl, rfl, rfl, rfl⟩ ⟨_, rfl⟩)))
  | c1 => exact later (by decide) (later (by decide) (now same0 (earlier (by decide) ⟨_, rfl⟩)))
  | c2 => exact later (by decide) (now same1 (earlier (by decide) (earlier (by decide) ⟨_, rfl⟩)))
  | c3 => exact now same2 (earlier (by decide) (earlier (by decide) (earlier (by decide) ⟨_, rfl⟩)))

/-- After an event a channel has the state it takes, with its mode shown (R54, R71). -/
theorem settle_chan (before s : State) (after : List Notice) (c : Chan) :
    ∃ m t, (settle before s after).chan c = { (s.takeState c).chan c with modeShown := m, tallies := t } := by
  rw [settle_eq]
  obtain ⟨q, hq⟩ := queueAll_frame s (crossing before s .b0 ++ crossing before s .b1 ++ after)
  rw [hq]
  exact settleChannels_chan { s with notices := q } c

end Sys2Proof.Machine.State
end

section
/-! An event that ends with a selection, and the run-out of the suspension timer. -/

namespace Sys2Proof.Machine.State

/-! ### An event that ends with a selection -/

theorem settleSelect_frame (before u : State) (after : List Notice) : ∃ q a k p w,
    (settle before u after).select = { u with
      notices := q, arbiter := a, channels := k, ports := p, engine := { u.engine with work := w } } := by
  obtain ⟨q, a, k, p, h⟩ := settle_frame before u after
  obtain ⟨a', k', w, h'⟩ := select_frame (settle before u after)
  exact ⟨q, a', k', p, w, by rw [h', h]⟩

theorem settleSelect_gates (before u : State) (after : List Notice) : u.GatesKept (settle before u after).select :=
  (settle_follow before u after).gates.trans (select_gates _)

/-- A selection leaves of a channel what the event's end makes of it, but for its tallies. -/
theorem settleSelect_chan (before u : State) (after : List Notice) (c : Chan) : ∃ m t,
    (settle before u after).select.chan c = { (u.takeState c).chan c with modeShown := m, tallies := t } := by
  obtain ⟨m, t, h⟩ := settle_chan before u after c
  obtain ⟨n, h'⟩ := select_chan (settle before u after) c
  exact ⟨m, _, by rw [h', h]⟩

theorem settleSelect_inOrder {s u : State} {before : State} {ns after : List Notice}
    (hu : u.notices = ns.foldl addNotice s.notices) :
    s.QueuesInOrder (settle before u after).select
      (ns ++ (crossing before u .b0 ++ crossing before u .b1 ++ after)) := by
  have h := settle_inOrder (before := before) (after := after) hu
  unfold QueuesInOrder at h ⊢
  rwa [select_notices]

/-! ### Seats held -/

theorem heldIn_eq_zero {b : Berth} {ks : List Claim} (h : ∀ k ∈ ks, k.berth ≠ b) : heldIn b ks = 0 := by
  induction ks with
  | nil => rfl
  | cons k ks ih =>
    rw [heldIn, if_neg (h k List.mem_cons_self), ih fun x hx => h x (List.mem_cons_of_mem _ hx)]

/-- A channel without a claim on a berth's call holds no seat of it. -/
theorem heldOn_eq_zero {x : ChannelClaims} {b : Berth} (h : ∀ k ∈ x.every, k.berth ≠ b) : x.heldOn b = 0 := by
  rw [ChannelClaims.heldOn, heldIn_eq_zero fun k hk => h k (List.mem_append_left _ hk),
    heldIn_eq_zero fun k hk => h k (List.mem_append_right _ hk)]

theorem held_setClaims_none {s : State} {c : Chan} {b : Berth} (h : ∀ k ∈ (s.claimsOf c).every, k.berth ≠ b) :
    (s.setClaims c .none).held b = s.held b := by
  have hheld := held_setClaims s c .none b
  rw [heldOn_eq_zero h] at hheld
  exact hheld

/-! ### The suspension limit (R48, R64) -/

/-- The state of a channel whose suspension timer has run out, its claims ended. -/
def limited (s : State) (c : Chan) : State :=
  ((s.setChan c { s.chan c with suspensionTimer := none, limitReached := true }).setClaims c .none).withLists
    (s.allotEnded (fun _ => true) s.tables.allot c) (s.journeyEnded (fun _ => true) s.engine.journey c)

theorem suspensionRunsOut_eq {s : State} {c : Chan} (hstate : (s.chan c).state = .suspended)
    (htimer : (s.chan c).suspensionTimer = some 0) :
    s.suspensionRunsOut c = (settle s (s.limited c) []).select := by
  have all : ∀ ks : List Claim, ks.filter (fun _ => !true) = [] := fun ks => List.filter_false ks
  unfold suspensionRunsOut
  rw [htimer, hstate, if_pos (by rfl)]
  dsimp only
  rw [endClaims_eq, all, all]
  rfl

theorem limited_gates (s : State) (c : Chan) : s.GatesKept (s.limited c) where
  gate d := by
    show (s.chan d).SameGate ((s.setChan c _).chan d)
    rw [chan_setChan]
    split
    · next hd =>
      subst hd
      exact ⟨rfl, rfl, rfl, rfl, rfl, rfl, rfl, rfl, rfl, rfl, rfl, rfl, rfl⟩
    · exact .same _
  line d := .same _

/-- The limit is reached on a channel that was SUSPENDED, so that the event's end clears neither the mark nor starts the
timer anew (R62, R64). -/
theorem limited_takeState {s : State} {c : Chan} (hstate : (s.chan c).state = .suspended) :
    (((s.limited c).takeState c).chan c).limitReached = true ∧
      (((s.limited c).takeState c).chan c).suspensionTimer = none := by
  have hk : (s.limited c).chan c = { s.chan c with suspensionTimer := none, limitReached := true } :=
    (chan_setChan ..).trans (if_pos rfl)
  simp [takeState, hk, hstate]

/-- The claims that the limit ends give seats back to the call of the channel's berth alone (R21). -/
theorem limited_crossings {s : State} {c : Chan} {b : Berth} (hclaims : Safety.ClaimsOnBoarding s)
    (hb : s.berthOf c = some b) :
    crossing s (s.limited c) .b0 ++ crossing s (s.limited c) .b1 = s.headroomNotice (s.limited c) b := by
  have other : ∀ d, (∀ k ∈ (s.claimsOf c).every, k.berth ≠ d) → (s.limited c).headroom d = s.headroom d := by
    intro d hd
    have hheld : (s.limited c).held d = s.held d := held_setClaims_none hd
    rw [headroom, headroom, hheld]
    rfl
  have here : ∀ k ∈ (s.claimsOf c).every, k.berth = b := fun k hk =>
    Option.some.inj ((hclaims c k hk).1.symm.trans hb)
  rw [crossings_one fun d hd => other d fun k hk => (here k hk).trans_ne hd.symm]
  by_cases hnone : ∀ k ∈ (s.claimsOf c).every, k.berth ≠ b
  · rw [crossing_same (other b hnone), headroomNotice, other b hnone, if_neg]
    omega
  · obtain ⟨k, hk, rfl⟩ : ∃ k ∈ (s.claimsOf c).every, k.berth = b := by
      simpa only [not_forall, not_not, exists_prop] using hnone
    have hopen := isOpen_of_isBoarding (hclaims c k hk).2
    exact crossing_eq hopen hopen rfl

end Sys2Proof.Machine.State

open Sys2Proof Sys2Proof.Machine Sys2Proof.Machine.State

/-- Settles O37: the claims end at once, and the channel was SUSPENDED before, so its mark is not cleared by the
event's end. -/
theorem suspensionLimitEndsClaims : Obligations.SuspensionLimitEndsClaims := by
  intro s c hrun hstate htimer
  have hexec : exec (.suspensionTimerExpiry c) s = .next (settle s (s.limited c) []).select :=
    congrArg Host.Outcome.next ((whenRunning_running hrun _).trans (suspensionRunsOut_eq hstate htimer))
  have horder := settleSelect_inOrder (s := s) (u := s.limited c) (before := s) (ns := []) (after := []) rfl
  have hgates := (limited_gates s c).trans (settleSelect_gates s (s.limited c) [])
  obtain ⟨m, u, hchan⟩ := settleSelect_chan s (s.limited c) [] c
  obtain ⟨q, a, k, p, w, hframe⟩ := settleSelect_frame s (s.limited c) []
  generalize (settle s (s.limited c) []).select = t at *
  refine ⟨t, hexec, ?_, hgates, ?_, ?_, fun hclaims b hb => ?_⟩
  · rw [hframe]
    rfl
  · rw [hchan]
    exact (limited_takeState hstate).1
  · rw [hchan]
    exact (limited_takeState hstate).2
  · have hroom : t.headroom b = (s.limited c).headroom b := by
      rw [hframe]
      rfl
    rw [limited_crossings hclaims hb, List.append_nil, List.nil_append] at horder
    rw [headroomNotice, hroom]
    exact horder
end

section
/-! The end of a call, written out on the parts of the state it changes. CAST_OFF, CALL_CANCEL and the last-call
timer's run-out. -/

namespace Sys2Proof.Machine

/-- A channel's claims that do not meet a test. -/
def ChannelClaims.without (x : ChannelClaims) (p : Claim → Bool) : ChannelClaims :=
  ⟨x.live.filter fun k => !p k, x.provisional.filter fun k => !p k⟩

namespace State

/-! ### The claims of a call (R49) -/

/-- Claims of several channels that end together, channel by channel: a channel's end depends on its own claims, and
leaves those of the others. -/
theorem foldl_endClaims {s : State} {p : Claim → Bool} (cs : List Chan) (t : State) (hcs : cs.Nodup)
    (hclaims : ∀ c ∈ cs, t.claimsOf c = s.claimsOf c) (hjourney : ∀ c, t.journeyUnknown c = s.journeyUnknown c) :
    cs.foldl (fun t c => t.endClaims c p) t =
      { t with claims := cs.foldl (fun m c => m.set c ((s.claimsOf c).without p)) t.claims }.withLists
        (cs.foldl (s.allotEnded p) t.tables.allot) (cs.foldl (s.journeyEnded p) t.engine.journey) := by
  induction cs generalizing t with
  | nil => rfl
  | cons c cs ih =>
    obtain ⟨hc, hcs⟩ := List.nodup_cons.mp hcs
    have hmine := hclaims c List.mem_cons_self
    rw [List.foldl_cons, endClaims_eq, allotEnded, journeyEnded, hmine, hjourney c]
    rw [ih _ hcs]
    · rfl
    · intro d hd
      have hne : d ≠ c := fun h => hc (h ▸ hd)
      exact ((claimsOf_setClaims ..).trans (if_neg hne)).trans (hclaims d (List.mem_cons_of_mem _ hd))
    · exact hjourney

/-- The claims on a berth's call have ended, with their seats given back and their journey entries. -/
def claimsEnded (s : State) (b : Berth) : State :=
  { s with claims := .of fun c => (s.claimsOf c).without fun k => k.berth = b }.withLists
    (Chan.all.foldl (s.allotEnded fun k => k.berth = b) s.tables.allot)
    (Chan.all.foldl (s.journeyEnded fun k => k.berth = b) s.engine.journey)

theorem endCallClaims_eq (s : State) (b : Berth) : s.endCallClaims b = s.claimsEnded b :=
  foldl_endClaims Chan.all s (by decide) (fun _ _ => rfl) fun _ => rfl

theorem claimsOf_claimsEnded (s : State) (b : Berth) (c : Chan) :
    (s.claimsEnded b).claimsOf c = (s.claimsOf c).without fun k => k.berth = b := by
  cases c <;> rfl

/-! ### The record, the work and the slots (R17, R104, R157) -/

/-- The notice of a call's end (R20). -/
def endNotice (s : State) (b : Berth) (reason : EndReason) (cause : CallCause) : Notice :=
  .callState b (s.call b).vessel (s.call b).state .ended cause reason (s.aboard b) ((s.call b).capacity - s.aboard b)

/-- The record of a call is ENDED, its timers stopped and its notice queued (R17, steps 1 to 5). -/
def recordEnded (s : State) (b : Berth) (reason : EndReason) (cause : CallCause) : State :=
  { s with
    calls := s.calls.set b { s.call b with state := .ended, endReason := reason, endedAt := s.stamp }
    callTimers := s.callTimers.set b .stopped
    notices := addNotice s.notices (s.endNotice b reason cause) }

theorem recordEnd_eq (s : State) (b : Berth) (reason : EndReason) (cause : CallCause) :
    s.recordEnd b reason cause = s.recordEnded b reason cause := by
  have hcall : ((s.setCall b { s.call b with state := .ended, endReason := reason, endedAt := s.stamp }).setTimers b
      .stopped).call b = { s.call b with state := .ended, endReason := reason, endedAt := s.stamp } :=
    (call_setCall ..).trans (if_pos rfl)
  unfold recordEnd
  dsimp only
  unfold queueCallState
  dsimp only
  rw [hcall, if_pos rfl, if_pos rfl, queue_eq]
  rfl

/-- The engine's work with the end mark, where it is of a channel of the berth (R104). -/
def workEnded (s : State) (b : Berth) (mark : EndMark) (w : Work) : Work :=
  match w.requester with
  | .channel c => if s.berthOf c = some b then { w with mark := mark } else w
  | .desk _ => w

/-- The mark of an end (R104). -/
def endMark (reason : EndReason) : EndMark := if reason = .egress then .egress else .notBoarding

theorem markEnded_eq (s : State) (b : Berth) (reason : EndReason) : s.markEnded b reason =
    { s with engine := { s.engine with work := s.engine.work.map (s.workEnded b (endMark reason)) } } := by
  have kept : ∀ w, s.engine.work = w → s = { s with engine := { s.engine with work := w } } := by
    rintro _ rfl
    rfl
  unfold markEnded
  split
  · next hw => exact kept _ (by rw [hw, Option.map_none])
  · next w hw =>
    rw [hw, Option.map_some, workEnded]
    cases w.requester with
    | desk _ => exact kept _ hw
    | channel c =>
      dsimp only
      split
      · rfl
      · exact kept _ hw

/-- What a berth's call end leaves of a slot (R157). -/
def slotEnded (b : Berth) (held : Option Referral) : Option Referral :=
  match held with
  | some r => if r.berth = b then none else some r
  | none => none

theorem setSlot_self (s : State) (i : Slot) : s.setSlot i (s.slot i) = s := by
  cases i <;> rfl

theorem resolveSlot_eq (s : State) (i : Slot) (code : VerdictCode) : ∃ k p,
    s.resolveSlot i code = { s.setSlot i none with channels := k, ports := p } := by
  unfold resolveSlot
  split
  · next h => exact ⟨s.channels, s.ports, by rw [← h, setSlot_self]⟩
  · exact deliver_frame ..

theorem resolveSlotOfBerth_eq (s : State) (b : Berth) (i : Slot) (code : VerdictCode) : ∃ k p,
    s.resolveSlotOfBerth b i code = { s.setSlot i (slotEnded b (s.slot i)) with channels := k, ports := p } := by
  unfold resolveSlotOfBerth slotEnded
  split
  · next h => exact ⟨s.channels, s.ports, by rw [h]; dsimp only; rw [← h, setSlot_self]⟩
  · next r h =>
    rw [h]
    dsimp only
    split
    · exact resolveSlot_eq s i code
    · exact ⟨s.channels, s.ports, by rw [← h, setSlot_self]⟩

theorem setSlot_follow (s : State) (i : Slot) (r : Option Referral) : s.ChannelsFollow (s.setSlot i r) := by
  cases i <;> exact .same rfl rfl rfl

theorem resolveSlot_follow (s : State) (i : Slot) (code : VerdictCode) : s.ChannelsFollow (s.resolveSlot i code) := by
  unfold resolveSlot
  split
  · exact .same rfl rfl rfl
  · exact (setSlot_follow s i none).trans (deliver_follow _ _ _)

theorem resolveSlotOfBerth_follow (s : State) (b : Berth) (i : Slot) (code : VerdictCode) :
    s.ChannelsFollow (s.resolveSlotOfBerth b i code) := by
  unfold resolveSlotOfBerth
  split
  · exact .same rfl rfl rfl
  · split
    · exact resolveSlot_follow s i code
    · exact .same rfl rfl rfl

/-! ### The end of a call (R17) -/

/-- A call has ended, but for what its refusals change at the channels. -/
def callEnded (s : State) (b : Berth) (reason : EndReason) (cause : CallCause) : State :=
  { s.recordEnded b reason cause with
    claims := (s.claimsEnded b).claims
    tables := (s.claimsEnded b).tables
    engine := { (s.claimsEnded b).engine with
      work := s.engine.work.map (s.workEnded b (endMark reason))
      slot0 := slotEnded b s.engine.slot0
      slot1 := slotEnded b s.engine.slot1 } }

/-- The entry of a claim whose outcome is unknown names the line of its call, which stays as the call ends. -/
theorem recordEnded_journeyUnknown (s : State) (b : Berth) (reason : EndReason) (cause : CallCause) (c : Chan) :
    (s.recordEnded b reason cause).journeyUnknown c = s.journeyUnknown c := by
  have hline : ∀ d, ((s.recordEnded b reason cause).call d).line = (s.call d).line := by
    intro d
    show ((s.calls.set b _).get d).line = _
    rw [PerBerth.get_set]
    split
    · next h => rw [h]
    · rfl
  funext j k
  unfold journeyUnknown
  simp only [hline]
  rfl

theorem recordEnded_claimsEnded (s : State) (b : Berth) (reason : EndReason) (cause : CallCause) :
    (s.recordEnded b reason cause).claimsEnded b = { s.recordEnded b reason cause with
      claims := (s.claimsEnded b).claims
      tables := (s.claimsEnded b).tables
      engine := (s.claimsEnded b).engine } := by
  have hjourney : (s.recordEnded b reason cause).journeyEnded (fun k => k.berth = b) =
      s.journeyEnded fun k => k.berth = b := by
    funext j c
    rw [journeyEnded, recordEnded_journeyUnknown]
    rfl
  rw [claimsEnded, hjourney]
  rfl

/-- What the end of a call leaves (R17). -/
theorem endCall_eq (s : State) (b : Berth) (reason : EndReason) (cause : CallCause) :
    (∃ a k p, s.endCall b reason cause = { s.callEnded b reason cause with
      arbiter := a, channels := k, ports := p }) ∧
    s.ChannelsFollow (s.endCall b reason cause) ∧
    ∀ c, s.berthOf c = some b → (s.endCall b reason cause).arbiter.places.get c = none := by
  unfold endCall
  dsimp only
  rw [recordEnd_eq, endCallClaims_eq, recordEnded_claimsEnded]
  generalize hcleared : ({ s.recordEnded b reason cause with
    claims := (s.claimsEnded b).claims
    tables := (s.claimsEnded b).tables
    engine := (s.claimsEnded b).engine } : State) = cleared
  have hfollow : s.ChannelsFollow cleared := by
    rw [← hcleared]
    exact .same rfl rfl rfl
  obtain ⟨a, k, p, hrefused⟩ := refuseOfBerth_frame cleared b (endVerdict reason) fun _ => true
  have hplaces := refuseOfBerth_places cleared b (endVerdict reason) fun _ => true
  have hfollow := hfollow.trans (refuseOfBerth_follow cleared b (endVerdict reason) fun _ => true)
  rw [markEnded_eq]
  generalize cleared.refuseOfBerth b (endVerdict reason) (fun _ => true) = refused at *
  generalize hmarked : ({ refused with engine := { refused.engine with
    work := refused.engine.work.map (refused.workEnded b (endMark reason)) } } : State) = marked
  have hfollow : s.ChannelsFollow marked := by
    rw [← hmarked]
    exact hfollow.trans (.same rfl rfl rfl)
  obtain ⟨k0, p0, h0⟩ := resolveSlotOfBerth_eq marked b .s0 (endVerdict reason)
  have hfollow := hfollow.trans (resolveSlotOfBerth_follow marked b .s0 (endVerdict reason))
  generalize marked.resolveSlotOfBerth b .s0 (endVerdict reason) = first at *
  obtain ⟨k1, p1, h1⟩ := resolveSlotOfBerth_eq first b .s1 (endVerdict reason)
  have hfollow := hfollow.trans (resolveSlotOfBerth_follow first b .s1 (endVerdict reason))
  generalize first.resolveSlotOfBerth b .s1 (endVerdict reason) = ended at *
  subst h1 h0 hmarked hrefused hcleared
  refine ⟨⟨a, k1, p1, rfl⟩, hfollow, fun c hc => ?_⟩
  exact (hplaces c).trans (if_pos ⟨hc, rfl⟩)

theorem endCall_notices (s : State) (b : Berth) (reason : EndReason) (cause : CallCause) :
    (s.endCall b reason cause).notices = addNotice s.notices (s.endNotice b reason cause) := by
  obtain ⟨⟨_, _, _, h⟩, -, -⟩ := endCall_eq s b reason cause
  rw [h]
  rfl

/-- What the end of a call leaves when the event has ended. -/
theorem endCall_settles (s : State) (b : Berth) (reason : EndReason) (cause : CallCause) :
    (∃ q a k p, settle s (s.endCall b reason cause) [] = { s.callEnded b reason cause with
      notices := q, arbiter := a, channels := k, ports := p }) ∧
    s.ChannelsFollow (settle s (s.endCall b reason cause) []) ∧
    (∀ c, s.berthOf c = some b → (settle s (s.endCall b reason cause) []).arbiter.places.get c = none) ∧
    s.QueuesFirst (settle s (s.endCall b reason cause) []) (s.endNotice b reason cause) := by
  obtain ⟨⟨_, _, _, hended⟩, hfollow, hplaces⟩ := endCall_eq s b reason cause
  obtain ⟨q, a, k, p, hsettled⟩ := settle_frame s (s.endCall b reason cause) []
  exact ⟨⟨q, a, k, p, by rw [hsettled, hended]⟩, hfollow.trans (settle_follow ..),
    fun c hc => settle_places _ _ _ c (hplaces c hc),
    queuesFirst_after (endCall_notices s b reason cause) (settle_extends ..)⟩

/-- What a state has of a call that an event ended, with the bus port as the event leaves it. -/
structure Ends (s t : State) (b : Berth) (reason : EndReason) (cause : CallCause) (bus : Bus) : Prop where
  frame : t = { s.callEnded b reason cause with
    bus := bus, notices := t.notices, arbiter := t.arbiter, channels := t.channels, ports := t.ports }
  follow : s.ChannelsFollow t
  places : ∀ c, s.berthOf c = some b → t.arbiter.places.get c = none
  first : s.QueuesFirst t (s.endNotice b reason cause)

theorem settle_ends (s : State) (b : Berth) (reason : EndReason) (cause : CallCause) :
    s.Ends (settle s (s.endCall b reason cause) []) b reason cause s.bus := by
  obtain ⟨hframe, hfollow, hplaces, hfirst⟩ := endCall_settles s b reason cause
  generalize settle s (s.endCall b reason cause) [] = settled at *
  obtain ⟨_, _, _, _, rfl⟩ := hframe
  exact ⟨rfl, hfollow, hplaces, hfirst⟩

theorem Ends.replied {s t : State} {b : Berth} {reason : EndReason} {cause : CallCause} {bus : Bus}
    (h : s.beginRequest.Ends t b reason cause bus) (B : Bus) : s.Ends { t with bus := B } b reason cause B where
  frame := by
    rw [h.frame]
    rfl
  follow := h.follow.replied B
  places := h.places
  first := h.first

/-- CAST_OFF and CALL_CANCEL of an open call with its vessel number end it (R11, R12). -/
theorem request_actEnd {s : State} {b : Berth} {reason : EndReason} (kind : MsgKind) (hrun : s.power = .running)
    (hvessel : (s.call b).vessel ≠ 0) (hopen : (s.call b).state.isOpen = true) :
    ∃ t, s.request kind .part .fits (actEnd reason b.num (s.call b).vessel) = t ∧
      s.Ends t b reason .command (s.repliedBus kind .part .ok (.entered b .ended)) := by
  have hact : actEnd reason b.num (s.call b).vessel s.beginRequest =
      (settle s.beginRequest (s.beginRequest.endCall b reason .command) []).enteredReply b :=
    stateMessage_accepts s.beginRequest _ hvessel hopen rfl
  have hends := settle_ends s.beginRequest b reason .command
  generalize settle s.beginRequest (s.beginRequest.endCall b reason .command) [] = settled at *
  have hbody : (settled.call b).state = .ended := by
    rw [hends.frame]
    show ((s.calls.set b _).get b).state = _
    rw [PerBerth.get_set, if_pos rfl]
  have hbus : settled.bus = s.beginRequest.bus := by
    rw [hends.frame]
  rw [enteredReply, hbody] at hact
  exact ⟨_, request_acts hrun hact hbus, hends.replied _⟩

end State

end Sys2Proof.Machine

open Sys2Proof Sys2Proof.Machine Sys2Proof.Machine.State

/-- Settles O29: the two messages and the run-out make one end of the call, under its reason and its cause. -/
theorem callsEnd : Obligations.CallsEnd := by
  intro s b i bus reason cause hrun h
  obtain ⟨t, hexec, hends, hreason⟩ : ∃ t, exec i s = .next t ∧ s.Ends t b reason cause bus ∧
      endMark reason = .notBoarding := by
    rcases h with ⟨rfl, hvessel, rfl, hopen, rfl, rfl⟩ | ⟨rfl, hvessel, rfl, hopen, rfl, rfl⟩ |
      ⟨rfl, htimer, hstate, rfl, rfl, rfl⟩
    · obtain ⟨t, ht, hends⟩ := request_actEnd .castOff hrun hvessel hopen
      exact ⟨t, congrArg Host.Outcome.next ht, hends, rfl⟩
    · obtain ⟨t, ht, hends⟩ := request_actEnd .callCancel hrun hvessel hopen
      exact ⟨t, congrArg Host.Outcome.next ht, hends, rfl⟩
    · refine ⟨_, congrArg Host.Outcome.next ((whenRunning_running hrun _).trans (if_pos ?_)), settle_ends .., rfl⟩
      rw [htimer, hstate]
      rfl
  have hframe := hends.frame
  rw [callEnded, hreason] at hframe
  refine ⟨t, hexec, ?_, hends.follow, fun c => ?_, hends.places, fun j => ?_, fun w hw => ?_, hends.first⟩
  · rw [hframe]
    rfl
  · rw [hframe]
    refine (claimsOf_claimsEnded s b c).trans ?_
    simp only [ChannelClaims.without, decide_not]
  · rw [hframe]
    cases j <;> rfl
  · rw [hframe]
    show s.engine.work.map _ = _
    rw [hw]
    rfl
end

section
/-! Entry to egress: the calls it ends, what it empties, and the channels it holds. -/

namespace Sys2Proof.Machine.State

/-! ### A channel whose state changes (R96) -/

/-- Before its part in the event's end a channel is as the event left it. -/
theorem settleChannels_at (s : State) (c : Chan) : ∃ v, SameInputs s v c ∧
    (∃ t, v.chan c = { s.chan c with tallies := t }) ∧ (v.settleChannel c).ChannelsFollow s.settleChannels := by
  have before : ∀ {u : State} {d : Chan}, c ≠ d → (∃ t, u.chan c = { s.chan c with tallies := t }) →
      ∃ t, (u.settleChannel d).chan c = { s.chan c with tallies := t } := by
    rintro u d hd ⟨t, h⟩
    obtain ⟨t', h'⟩ := settleChannel_chan_other u hd
    exact ⟨t', by rw [h', h]⟩
  have same0 := settleChannel_same s .c0 c
  have same1 := same0.trans (settleChannel_same _ .c1 c)
  have same2 := same1.trans (settleChannel_same _ .c2 c)
  unfold settleChannels
  cases c with
  | c0 => exact ⟨s, ⟨rfl, rfl, rfl, rfl, rfl, rfl, rfl⟩, ⟨_, rfl⟩, ((settleChannel_follow _ .c1).trans
      (settleChannel_follow _ .c2)).trans (settleChannel_follow _ .c3)⟩
  | c1 => exact ⟨_, same0, before (by decide) ⟨_, rfl⟩,
      (settleChannel_follow _ .c2).trans (settleChannel_follow _ .c3)⟩
  | c2 => exact ⟨_, same1, before (by decide) (before (by decide) ⟨_, rfl⟩), settleChannel_follow _ .c3⟩
  | c3 => exact ⟨_, same2, before (by decide) (before (by decide) (before (by decide) ⟨_, rfl⟩)),
      .same rfl rfl rfl⟩

/-- A channel that takes a state that does not serve its pending presentation empties its place. -/
theorem settleChannel_refuses {s : State} {c : Chan} (hstate : (s.chan c).state ≠ s.deriveState c)
    (hrefuses : stateRefusal (s.deriveState c) ≠ none) : (s.settleChannel c).arbiter.places.get c = none := by
  obtain ⟨_, _, hshown⟩ := showMode_frame (tellArbiter s (reportState s (s.takeState c) c) c) c
  obtain ⟨_, hreported⟩ := reportState_frame s (s.takeState c) c
  have htaken : ((reportState s (s.takeState c) c).chan c).state = s.deriveState c := by
    rw [hreported]
    exact congrArg Channel.state ((chan_setChan ..).trans (if_pos rfl))
  unfold settleChannel
  dsimp only
  rw [hshown]
  dsimp only
  unfold tellArbiter
  rw [htaken, if_neg hstate]
  split
  · next h => exact absurd h hrefuses
  · exact (refusePending_places ..).trans (if_pos rfl)

theorem settle_refuses {before s : State} {after : List Notice} {c : Chan} (hstate : (s.chan c).state ≠ s.deriveState c)
    (hrefuses : stateRefusal (s.deriveState c) ≠ none) : (settle before s after).arbiter.places.get c = none := by
  rw [settle_eq]
  obtain ⟨q, hq⟩ := queueAll_frame s (crossing before s .b0 ++ crossing before s .b1 ++ after)
  rw [hq]
  obtain ⟨v, hinputs, ⟨t, hchan⟩, hfollow⟩ := settleChannels_at { s with notices := q } c
  have hderive : v.deriveState c = s.deriveState c := hinputs.deriveState
  have hempty : (v.settleChannel c).arbiter.places.get c = none := by
    refine settleChannel_refuses ?_ ?_
    · rw [hderive, hchan]
      exact hstate
    · rwa [hderive]
  rcases hfollow.place c with h | h
  · rw [h, hempty]
  · exact h

/-! ### What a refusal leaves of the channels -/

/-- Every channel is as before but for its tallies. -/
structure TalliesMove (s t : State) : Prop where
  chan : ∀ c, ∃ x, t.chan c = { s.chan c with tallies := x }

theorem TalliesMove.same {s t : State} (h : t.channels = s.channels) : s.TalliesMove t where
  chan c := ⟨_, by rw [State.chan, h]; rfl⟩

theorem TalliesMove.trans {s t u : State} (h : s.TalliesMove t) (g : t.TalliesMove u) : s.TalliesMove u where
  chan c := by
    obtain ⟨x, hx⟩ := h.chan c
    obtain ⟨y, hy⟩ := g.chan c
    exact ⟨y, by rw [hy, hx]⟩

theorem refuseOfBerth_tallies (s : State) (b : Berth) (code : VerdictCode) (p : Chan → Bool) :
    s.TalliesMove (s.refuseOfBerth b code p) := by
  unfold refuseOfBerth
  generalize Chan.all = cs
  induction cs generalizing s with
  | nil => exact .same rfl
  | cons c cs ih =>
    rw [List.foldl_cons]
    refine TalliesMove.trans ?_ (ih _)
    split
    · exact ⟨fun d => refusePending_chan s c d code⟩
    · exact .same rfl

theorem resolveSlot_tallies (s : State) (i : Slot) (code : VerdictCode) : s.TalliesMove (s.resolveSlot i code) := by
  unfold resolveSlot
  split
  · exact .same rfl
  · exact TalliesMove.trans (.same (setSlot_channels s i none)) ⟨fun d => deliver_chan ..⟩

theorem resolveSlotOfBerth_tallies (s : State) (b : Berth) (i : Slot) (code : VerdictCode) :
    s.TalliesMove (s.resolveSlotOfBerth b i code) := by
  unfold resolveSlotOfBerth
  split
  · exact .same rfl
  · split
    · exact resolveSlot_tallies s i code
    · exact .same rfl

theorem endCall_tallies (s : State) (b : Berth) (reason : EndReason) (cause : CallCause) :
    s.TalliesMove (s.endCall b reason cause) := by
  unfold endCall
  dsimp only
  refine TalliesMove.trans ?_ (resolveSlotOfBerth_tallies _ b .s1 _)
  refine TalliesMove.trans ?_ (resolveSlotOfBerth_tallies _ b .s0 _)
  rw [markEnded_eq, recordEnd_eq, endCallClaims_eq]
  have cleared : s.TalliesMove ((s.recordEnded b reason cause).claimsEnded b) := .same rfl
  have refused := cleared.trans (refuseOfBerth_tallies _ b (endVerdict reason) fun _ => true)
  generalize ((s.recordEnded b reason cause).claimsEnded b).refuseOfBerth b (endVerdict reason) (fun _ => true) = t at *
  exact refused.trans (.same rfl)

/-! ### The calls that egress ends (R24, R165) -/

/-- A call that was open has ended by egress, but for what its refusals change at the channels. -/
def egressEnded (s : State) (b : Berth) : State :=
  if (s.call b).state.isOpen then s.callEnded b .egress .egress else s

theorem endByEgress_eq (s : State) (b : Berth) :
    (∃ a k p, s.endByEgress b = { s.egressEnded b with arbiter := a, channels := k, ports := p }) ∧
    s.ChannelsFollow (s.endByEgress b) ∧ s.TalliesMove (s.endByEgress b) ∧
    ∀ c, s.berthOf c = some b → (s.call b).state.isOpen = true → (s.endByEgress b).arbiter.places.get c = none := by
  unfold endByEgress egressEnded
  split
  · obtain ⟨hframe, hfollow, hplaces⟩ := endCall_eq s b .egress .egress
    exact ⟨hframe, hfollow, endCall_tallies .., fun c hc _ => hplaces c hc⟩
  · next hopen => exact ⟨⟨_, _, _, rfl⟩, .same rfl rfl rfl, .same rfl, fun _ _ h => absurd h hopen⟩

/-- What a call's end by egress changes does not depend on the channels, the ports and the arbiter. -/
theorem egressEnded_with (s : State) (b : Berth) (a : Arbiter) (k : PerChan Channel) (p : PerChan Port) :
    ({ s with arbiter := a, channels := k, ports := p } : State).egressEnded b =
      { s.egressEnded b with arbiter := a, channels := k, ports := p } := by
  unfold egressEnded
  show (if (s.call b).state.isOpen then _ else _) = _
  split <;> rfl

theorem egressEnded_call (s : State) (b d : Berth) : (s.egressEnded b).call d =
    if d = b ∧ (s.call b).state.isOpen = true then
      { s.call b with state := .ended, endReason := .egress, endedAt := s.stamp } else s.call d := by
  unfold egressEnded
  by_cases hopen : (s.call b).state.isOpen = true
  · rw [if_pos hopen]
    show (s.calls.set b _).get d = _
    rw [PerBerth.get_set]
    simp only [hopen, and_true]
    rfl
  · rw [if_neg hopen, if_neg fun h => hopen h.2]

theorem egressEnded_call_other (s : State) {b d : Berth} (hd : d ≠ b) : (s.egressEnded b).call d = s.call d := by
  rw [egressEnded_call, if_neg fun h => hd h.1]

theorem egressEnded_timers (s : State) (b d : Berth) : (s.egressEnded b).timersOf d =
    if d = b ∧ (s.call b).state.isOpen = true then .stopped else s.timersOf d := by
  unfold egressEnded
  by_cases hopen : (s.call b).state.isOpen = true
  · rw [if_pos hopen]
    show (s.callTimers.set b _).get d = _
    rw [PerBerth.get_set]
    simp only [hopen, and_true]
    rfl
  · rw [if_neg hopen, if_neg fun h => hopen h.2]

theorem egressEnded_claims (s : State) (b : Berth) (c : Chan) : (s.egressEnded b).claimsOf c =
    if (s.call b).state.isOpen then (s.claimsOf c).without fun k => k.berth = b else s.claimsOf c := by
  unfold egressEnded
  split
  · exact claimsOf_claimsEnded s b c
  · rfl

/-- The end of one call leaves the claims of the other. -/
theorem egressEnded_filter (s : State) {b d : Berth} (hd : d ≠ b) (c : Chan) :
    ((s.egressEnded b).claimsOf c).live.filter (fun k => k.berth = d) = (s.claimsOf c).live.filter (fun k => k.berth = d) ∧
    ((s.egressEnded b).claimsOf c).provisional.filter (fun k => k.berth = d) =
      (s.claimsOf c).provisional.filter fun k => k.berth = d := by
  have other : ∀ ks : List Claim, (ks.filter fun k => !decide (k.berth = b)).filter (fun k => k.berth = d) =
      ks.filter fun k => k.berth = d := by
    intro ks
    rw [List.filter_filter]
    refine List.filter_congr fun k _ => ?_
    by_cases hk : k.berth = d
    · simp [hk, hd]
    · simp [hk]
  rw [egressEnded_claims]
  split
  · exact ⟨other _, other _⟩
  · exact ⟨rfl, rfl⟩

theorem egressEnded_allotEnded (s : State) {b d : Berth} (hd : d ≠ b) :
    (s.egressEnded b).allotEnded (fun k => k.berth = d) = s.allotEnded fun k => k.berth = d := by
  funext l c
  obtain ⟨hlive, hprovisional⟩ := egressEnded_filter s hd c
  rw [allotEnded, hlive, hprovisional]
  rfl

theorem egressEnded_journeyEnded (s : State) {b d : Berth} (hd : d ≠ b) :
    (s.egressEnded b).journeyEnded (fun k => k.berth = d) = s.journeyEnded fun k => k.berth = d := by
  have hunknown : ∀ c, (s.egressEnded b).journeyUnknown c = s.journeyUnknown c := by
    intro c
    unfold egressEnded
    split
    · exact recordEnded_journeyUnknown s b .egress .egress c
    · rfl
  funext j c
  obtain ⟨hlive, hprovisional⟩ := egressEnded_filter s hd c
  rw [journeyEnded, hlive, hprovisional, hunknown]
  rfl

theorem egressEnded_allot (s : State) (b : Berth) : (s.egressEnded b).tables.allot =
    if (s.call b).state.isOpen then Chan.all.foldl (s.allotEnded fun k => k.berth = b) s.tables.allot
    else s.tables.allot := by
  unfold egressEnded
  split <;> rfl

theorem egressEnded_journey (s : State) (b : Berth) : (s.egressEnded b).engine.journey =
    if (s.call b).state.isOpen then Chan.all.foldl (s.journeyEnded fun k => k.berth = b) s.engine.journey
    else s.engine.journey := by
  unfold egressEnded
  split <;> rfl

theorem egressEnded_work (s : State) (b : Berth) : (s.egressEnded b).engine.work =
    if (s.call b).state.isOpen then s.engine.work.map (s.workEnded b .egress) else s.engine.work := by
  unfold egressEnded
  split <;> rfl

theorem egressEnded_notices (s : State) (b : Berth) : (s.egressEnded b).notices =
    (if (s.call b).state.isOpen then [s.endNotice b .egress .egress] else []).foldl addNotice s.notices := by
  unfold egressEnded
  split <;> rfl

/-- What the ends of calls by egress leave of the engine beside its work, its journey list and its slots, and of the
rest of the state. -/
theorem egressEnded_rest (s : State) (b : Berth) : ∃ n m l a j w x y q, s.egressEnded b = { s with
    calls := n, callTimers := m, claims := l, tables := { s.tables with allot := a }
    engine := { s.engine with journey := j, work := w, slot0 := x, slot1 := y }
    notices := q } := by
  unfold egressEnded
  split
  · exact ⟨_, _, _, _, _, _, _, _, _, rfl⟩
  · exact ⟨_, _, _, _, _, _, _, _, _, rfl⟩

end Sys2Proof.Machine.State
end

section
/-! Entry to egress as one event: EGRESS_ENTER and EVACUATE_ACTIVE. -/

namespace Sys2Proof.Machine.State

/-! ### The desk (R89, R100) -/

theorem refuseDesk_eq (s : State) (code : VerdictCode) : ∃ ns : List Notice, s.refuseDesk code = { s with
    arbiter := { s.arbiter with desk := none, deskOccupied := s.arbiter.deskOccupied && s.arbiter.desk.isNone }
    notices := ns.foldl addNotice s.notices } := by
  unfold refuseDesk
  split
  · next h =>
    have hsame : s = { s with arbiter := { s.arbiter with
        desk := none, deskOccupied := s.arbiter.deskOccupied && s.arbiter.desk.isNone } } := by
      rw [h, Option.isNone_none, Bool.and_true, ← h]
    exact ⟨[], hsame⟩
  · next p h =>
    rw [queue_eq, h, Option.isNone_some, Bool.and_false]
    exact ⟨[_], rfl⟩

theorem ChannelsFollow.empty {s t : State} {c : Chan} (h : s.ChannelsFollow t) (hc : s.arbiter.places.get c = none) :
    t.arbiter.places.get c = none := by
  rcases h.place c with e | e
  · rw [e, hc]
  · exact e

/-! ### The controller and the calls (R165) -/

/-- The controller of egress after an entry (R163, R166). -/
def egressOf (s : State) (cause : EgressCause) : Egress where
  active := true
  byLine := cause = .line
  byCommand := cause = .command
  level := s.egress.level
  hold := some Config.holdMs
  pendingClear := false
  posture := .of fun c => some (s.cfg.posture.get c)
  latch := .same none

/-- The notice of an entry to egress. -/
def enteredNotice (s : State) (cause : EgressCause) : Notice :=
  .egressEntered cause (.of fun c =>
    (some (s.cfg.posture.get c), (s.chan c).tallies.egressIn, (s.chan c).tallies.egressOut))

/-- Egress has been entered, with no call ended yet (R165, step 1). -/
def egressStarted (s : State) (cause : EgressCause) : State :=
  { s with egress := s.egressOf cause, notices := addNotice s.notices (s.enteredNotice cause) }

theorem startEgress_eq (s : State) (cause : EgressCause) : s.startEgress cause = s.egressStarted cause := by
  unfold startEgress
  dsimp only
  rw [queue_eq]
  rfl

/-- Entry to egress has ended the calls and the referrals, but for what its refusals change at the channels and the
desk (R165, steps 1 to 3). -/
def egressEntered (s : State) (cause : EgressCause) : State :=
  { ((s.egressStarted cause).egressEnded .b0).egressEnded .b1 with
    engine := { (((s.egressStarted cause).egressEnded .b0).egressEnded .b1).engine with slot0 := none, slot1 := none } }

/-- The CALL_STATE of a call that egress ends (R24). -/
def endedByEgress (s : State) (b : Berth) : List Notice :=
  if (s.call b).state.isOpen then [s.endNotice b .egress .egress] else []

theorem egressEntered_notices (s : State) (cause : EgressCause) : (s.egressEntered cause).notices =
    (s.enteredNotice cause :: (s.endedByEgress .b0 ++ s.endedByEgress .b1)).foldl addNotice s.notices := by
  have second : ((s.egressStarted cause).egressEnded .b0).endedByEgress .b1 = s.endedByEgress .b1 := by
    unfold endedByEgress endNotice aboard
    rw [egressEnded_call_other _ (by decide)]
    rfl
  show (((s.egressStarted cause).egressEnded .b0).egressEnded .b1).notices = _
  rw [egressEnded_notices, ← endedByEgress, second, egressEnded_notices, List.foldl_cons, List.foldl_append]
  rfl

/-- Both calls have ended where they were open, and the slots are empty. -/
theorem endedByEgress_eq (s : State) :
    (∃ a k p, (((s.endByEgress .b0).endByEgress .b1).resolveSlot .s0 .egress).resolveSlot .s1 .egress =
      { (s.egressEnded .b0).egressEnded .b1 with
        engine := { ((s.egressEnded .b0).egressEnded .b1).engine with slot0 := none, slot1 := none }
        arbiter := a, channels := k, ports := p }) ∧
    s.ChannelsFollow ((((s.endByEgress .b0).endByEgress .b1).resolveSlot .s0 .egress).resolveSlot .s1 .egress) ∧
    s.TalliesMove ((((s.endByEgress .b0).endByEgress .b1).resolveSlot .s0 .egress).resolveSlot .s1 .egress) ∧
    ∀ c b, s.berthOf c = some b → (s.call b).state.isOpen = true →
      ((((s.endByEgress .b0).endByEgress .b1).resolveSlot .s0 .egress).resolveSlot .s1 .egress).arbiter.places.get c =
        none := by
  obtain ⟨⟨a0, k0, p0, h0⟩, hfollow0, htallies0, hplaces0⟩ := endByEgress_eq s .b0
  have hsame : (s.endByEgress .b0).berthOf = s.berthOf ∧ (s.endByEgress .b0).call .b1 = s.call .b1 := by
    obtain ⟨_, _, _, _, _, _, _, _, _, hrest⟩ := egressEnded_rest s .b0
    refine ⟨?_, ?_⟩
    · rw [h0, hrest]
      rfl
    · rw [h0]
      exact egressEnded_call_other s (by decide)
  obtain ⟨hberth, hcall⟩ := hsame
  have hnext : (s.endByEgress .b0).egressEnded .b1 =
      { (s.egressEnded .b0).egressEnded .b1 with arbiter := a0, channels := k0, ports := p0 } := by
    rw [h0, egressEnded_with (s.egressEnded .b0)]
  generalize s.endByEgress .b0 = t0 at *
  obtain ⟨⟨a1, k1, p1, h1⟩, hfollow1, htallies1, hplaces1⟩ := endByEgress_eq t0 .b1
  rw [hnext] at h1
  generalize t0.endByEgress .b1 = t1 at *
  obtain ⟨k2, p2, h2⟩ := resolveSlot_eq t1 .s0 .egress
  have hfollow2 := resolveSlot_follow t1 .s0 .egress
  have htallies2 := resolveSlot_tallies t1 .s0 .egress
  generalize t1.resolveSlot .s0 .egress = t2 at *
  obtain ⟨k3, p3, h3⟩ := resolveSlot_eq t2 .s1 .egress
  have hfollow3 := hfollow2.trans (resolveSlot_follow t2 .s1 .egress)
  have htallies3 := htallies2.trans (resolveSlot_tallies t2 .s1 .egress)
  generalize t2.resolveSlot .s1 .egress = t3 at *
  refine ⟨⟨a1, k3, p3, ?_⟩, (hfollow0.trans hfollow1).trans hfollow3, (htallies0.trans htallies1).trans htallies3, ?_⟩
  · rw [h3, h2, h1]
    rfl
  · rintro c (_ | _) hb hopen
    · exact (hfollow1.trans hfollow3).empty (hplaces0 c hb hopen)
    · exact hfollow3.empty (hplaces1 c (by rw [hberth, hb]) (by rw [hcall, hopen]))

/-- What an entry to egress leaves before its channels' part (R165, steps 1 to 4). -/
theorem enterEgress_eq (s : State) (cause : EgressCause) :
    (∃ q a k p, s.enterEgress cause = { s.egressEntered cause with
      notices := q, arbiter := a, channels := k, ports := p }) ∧
    (s.egressEntered cause).Extends (s.enterEgress cause) ∧
    s.GatesKept (s.enterEgress cause) ∧ s.TalliesMove (s.enterEgress cause) ∧
    (s.enterEgress cause).arbiter.desk = none ∧
    (s.enterEgress cause).arbiter.deskOccupied = (s.arbiter.deskOccupied && s.arbiter.desk.isNone) ∧
    ∀ c b, s.berthOf c = some b → (s.call b).state.isOpen = true →
      (s.enterEgress cause).arbiter.places.get c = none := by
  unfold enterEgress
  dsimp only
  rw [startEgress_eq]
  obtain ⟨⟨a, k, p, hended⟩, hfollow, htallies, hplaces⟩ := endedByEgress_eq (s.egressStarted cause)
  generalize ((((s.egressStarted cause).endByEgress .b0).endByEgress .b1).resolveSlot .s0 .egress).resolveSlot .s1
    .egress = ended at *
  obtain ⟨ns, hdesk⟩ := refuseDesk_eq ended .egress
  have hoccupied : ended.arbiter.deskOccupied = s.arbiter.deskOccupied := hfollow.occupied
  have hheld : ended.arbiter.desk = s.arbiter.desk := hfollow.desk
  rw [hdesk]
  have hgates : s.GatesKept ended := (GatesKept.same (s := s) (t := s.egressStarted cause) rfl rfl).trans hfollow.gates
  have htallies : s.TalliesMove ended := (TalliesMove.same (s := s) (t := s.egressStarted cause) rfl).trans htallies
  refine ⟨⟨ns.foldl addNotice ended.notices, { ended.arbiter with
    desk := none, deskOccupied := ended.arbiter.deskOccupied && ended.arbiter.desk.isNone }, k, p, ?_⟩, ⟨ns, ?_⟩,
    hgates.trans (.same rfl rfl), htallies.trans (.same rfl), rfl, ?_, hplaces⟩
  · rw [hended]
    rfl
  · rw [hended]
    rfl
  · show (ended.arbiter.deskOccupied && ended.arbiter.desk.isNone) = _
    rw [hoccupied, hheld]

/-- What egress keeps of the state it finds, beside the calls, their claims, the engine's cases and the egress
controller. -/
theorem egressEntered_rest (s : State) (cause : EgressCause) : ∃ n m l a j w q, s.egressEntered cause = { s with
    calls := n, callTimers := m, claims := l, tables := { s.tables with allot := a }
    engine := { s.engine with journey := j, work := w, slot0 := none, slot1 := none }
    egress := s.egressOf cause
    notices := q } := by
  obtain ⟨_, _, _, _, _, _, _, _, _, h0⟩ := egressEnded_rest (s.egressStarted cause) .b0
  obtain ⟨n, m, l, a, j, w, _, _, q, h1⟩ := egressEnded_rest ((s.egressStarted cause).egressEnded .b0) .b1
  refine ⟨n, m, l, a, j, w, q, ?_⟩
  rw [egressEntered, h1, h0]
  rfl

/-- Egress has been entered and the event has ended, with the bus port as the event leaves it. -/
structure EntersEgress (s t : State) (cause : EgressCause) (bus : Bus) : Prop where
  frame : t = { s.egressEntered cause with
    bus := bus, notices := t.notices, arbiter := t.arbiter, channels := t.channels, ports := t.ports }
  gates : s.GatesKept t
  desk : t.arbiter.desk = none
  occupied : t.arbiter.deskOccupied = (s.arbiter.deskOccupied && s.arbiter.desk.isNone)
  places : ∀ c, (s.chan c).state ≠ .egressHeld ∨ (∃ b, s.berthOf c = some b ∧ (s.call b).state.isOpen = true) →
    t.arbiter.places.get c = none
  held : ∀ c, (t.chan c).state = .egressHeld
  order : s.QueuesInOrder t (s.enteredNotice cause :: (s.endedByEgress .b0 ++ s.endedByEgress .b1))

theorem deriveState_egress {s : State} (h : s.egress.active = true) (c : Chan) : s.deriveState c = .egressHeld := by
  rw [deriveState, h, Bool.true_or, if_pos rfl]

theorem settle_entersEgress (before s : State) (cause : EgressCause) :
    s.EntersEgress (settle before (s.enterEgress cause) []) cause s.bus := by
  obtain ⟨⟨_, _, _, _, hentered⟩, hextends, hgates, htallies, hdesk, hoccupied, hplaces⟩ := enterEgress_eq s cause
  have hactive : (s.enterEgress cause).egress.active = true := by
    obtain ⟨_, _, _, _, _, _, _, h⟩ := egressEntered_rest s cause
    rw [hentered, h]
    rfl
  have hbus : (s.egressEntered cause).bus = s.bus := by
    obtain ⟨_, _, _, _, _, _, _, h⟩ := egressEntered_rest s cause
    rw [h]
  have hfollow := settle_follow before (s.enterEgress cause) []
  have hextends' := hextends.trans (settle_extends before (s.enterEgress cause) [])
  have hsettled := settle_settled before (s.enterEgress cause) []
  have hrefuses : ∀ c, (s.chan c).state ≠ .egressHeld →
      (settle before (s.enterEgress cause) []).arbiter.places.get c = none := by
    intro c hc
    obtain ⟨x, hx⟩ := htallies.chan c
    refine settle_refuses ?_ ?_ <;> rw [deriveState_egress hactive]
    · rw [hx]
      exact hc
    · exact nofun
  obtain ⟨q, a, k, p, hframe⟩ := settle_frame before (s.enterEgress cause) []
  generalize settle before (s.enterEgress cause) [] = t at *
  have hactive' : t.egress.active = true := by
    rw [hframe]
    exact hactive
  refine ⟨?_, hgates.trans hfollow.gates, hfollow.desk.trans hdesk, hfollow.occupied.trans hoccupied, ?_,
    fun c => (hsettled c).state.trans (deriveState_egress hactive' c), ?_⟩
  · rw [hframe, hentered, ← hbus]
  · rintro c (hc | ⟨b, hb, hopen⟩)
    · exact hrefuses c hc
    · exact hfollow.empty (hplaces c b hb hopen)
  · exact queuesInOrder_after (egressEntered_notices s cause) hextends'

theorem egressEnded_bus (s : State) (b : Berth) (B : Bus) :
    ({ s with bus := B } : State).egressEnded b = { s.egressEnded b with bus := B } := by
  unfold egressEnded
  show (if (s.call b).state.isOpen then _ else _) = _
  split <;> rfl

theorem egressEntered_bus (s : State) (cause : EgressCause) (B : Bus) :
    ({ s with bus := B } : State).egressEntered cause = { s.egressEntered cause with bus := B } := by
  have hstarted : ({ s with bus := B } : State).egressStarted cause = { s.egressStarted cause with bus := B } := rfl
  rw [egressEntered, hstarted, egressEnded_bus (s.egressStarted cause) .b0 B,
    egressEnded_bus ((s.egressStarted cause).egressEnded .b0) .b1 B]
  rfl

theorem EntersEgress.replied {s t : State} {cause : EgressCause} {bus : Bus}
    (h : s.beginRequest.EntersEgress t cause bus) (B : Bus) : s.EntersEgress { t with bus := B } cause B where
  frame := by
    have hbus : s.beginRequest.egressEntered cause = { s.egressEntered cause with bus := s.beginRequest.bus } :=
      egressEntered_bus s cause s.beginRequest.bus
    rw [h.frame, hbus]
  gates := ⟨h.gates.gate, h.gates.line⟩
  desk := h.desk
  occupied := h.occupied
  places := h.places
  held := h.held
  order := h.order

/-! ### What an entry to egress makes of the calls and of what they hold -/

theorem egressEntered_allot (s : State) (cause : EgressCause) : (s.egressEntered cause).tables.allot =
    [Berth.b0, .b1].foldl (fun l b =>
      if (s.call b).state.isOpen then Chan.all.foldl (s.allotEnded fun k => k.berth = b) l else l)
      s.tables.allot := by
  show (((s.egressStarted cause).egressEnded .b0).egressEnded .b1).tables.allot = _
  rw [egressEnded_allot, egressEnded_call_other _ (by decide), egressEnded_allotEnded _ (by decide), egressEnded_allot]
  rfl

theorem egressEntered_journey (s : State) (cause : EgressCause) : (s.egressEntered cause).engine.journey =
    [Berth.b0, .b1].foldl (fun j b =>
      if (s.call b).state.isOpen then Chan.all.foldl (s.journeyEnded fun k => k.berth = b) j else j)
      s.engine.journey := by
  show (((s.egressStarted cause).egressEnded .b0).egressEnded .b1).engine.journey = _
  rw [egressEnded_journey, egressEnded_call_other _ (by decide), egressEnded_journeyEnded _ (by decide),
    egressEnded_journey]
  rfl

theorem egressEntered_call (s : State) (cause : EgressCause) (b : Berth) : (s.egressEntered cause).call b =
    if (s.call b).state.isOpen then { s.call b with state := .ended, endReason := .egress, endedAt := s.stamp }
    else s.call b := by
  show (((s.egressStarted cause).egressEnded .b0).egressEnded .b1).call b = _
  cases b with
  | b0 =>
    rw [egressEnded_call_other _ (by decide), egressEnded_call]
    simp only [true_and]
    rfl
  | b1 =>
    rw [egressEnded_call]
    simp only [true_and, egressEnded_call_other (s.egressStarted cause) (show Berth.b1 ≠ .b0 by decide)]
    obtain ⟨_, _, _, _, _, _, _, _, _, h⟩ := egressEnded_rest (s.egressStarted cause) .b0
    rw [h]
    rfl

theorem egressEntered_timers {s : State} {cause : EgressCause} {b : Berth} (h : (s.call b).state.isOpen = true) :
    (s.egressEntered cause).timersOf b = .stopped := by
  show (((s.egressStarted cause).egressEnded .b0).egressEnded .b1).timersOf b = _
  cases b with
  | b0 => rw [egressEnded_timers, if_neg nofun, egressEnded_timers, if_pos ⟨rfl, h⟩]
  | b1 => rw [egressEnded_timers, egressEnded_call_other _ (by decide), if_pos ⟨rfl, h⟩]

theorem mem_without {x : ChannelClaims} {p : Claim → Bool} {k : Claim} (h : k ∈ (x.without p).every) :
    k ∈ x.every ∧ p k = false := by
  rcases List.mem_append.mp h with hk | hk <;> obtain ⟨hmem, hp⟩ := List.mem_filter.mp hk
  · exact ⟨List.mem_append_left _ hmem, by simpa using hp⟩
  · exact ⟨List.mem_append_right _ hmem, by simpa using hp⟩

/-- A claim that is left after one call's end stood before, and on no call that ended. -/
theorem egressEnded_mem {s : State} {b : Berth} {c : Chan} {k : Claim}
    (h : k ∈ ((s.egressEnded b).claimsOf c).every) :
    k ∈ (s.claimsOf c).every ∧ (k.berth = b → (s.call b).state.isOpen = false) := by
  rw [egressEnded_claims] at h
  split at h
  · obtain ⟨hmem, hk⟩ := mem_without h
    exact ⟨hmem, fun hb => absurd hb (of_decide_eq_false hk)⟩
  · next hopen => exact ⟨h, fun _ => Bool.eq_false_iff.mpr hopen⟩

theorem egressEntered_mem {s : State} {cause : EgressCause} {c : Chan} {k : Claim}
    (h : k ∈ ((s.egressEntered cause).claimsOf c).every) : (s.call k.berth).state.isOpen = false := by
  obtain ⟨h0, hb1⟩ := egressEnded_mem h
  obtain ⟨-, hb0⟩ := egressEnded_mem h0
  rw [egressEnded_call_other _ (by decide)] at hb1
  cases hk : k.berth with
  | b0 => exact hb0 hk
  | b1 => exact hb1 hk

theorem egressEntered_work (s : State) (cause : EgressCause) : (s.egressEntered cause).engine.work =
    s.engine.work.map fun w => match w.requester with
      | .desk _ => w
      | .channel c => match s.berthOf c with
        | none => w
        | some b => if (s.call b).state.isOpen then { w with mark := .egress } else w := by
  have hsecond : ((s.egressStarted cause).egressEnded .b0).workEnded .b1 .egress = s.workEnded .b1 .egress := by
    obtain ⟨_, _, _, _, _, _, _, _, _, h⟩ := egressEnded_rest (s.egressStarted cause) .b0
    rw [h]
    rfl
  have hfirst : (s.egressStarted cause).workEnded .b0 .egress = s.workEnded .b0 .egress := rfl
  have hcall : (s.egressStarted cause).call = s.call := rfl
  have hwork : (s.egressStarted cause).engine.work = s.engine.work := rfl
  show (((s.egressStarted cause).egressEnded .b0).egressEnded .b1).engine.work = _
  rw [egressEnded_work, egressEnded_call_other _ (by decide), egressEnded_work, hsecond, hfirst, hcall, hwork]
  have once : ∀ (b : Berth) (x : Option Work), (if (s.call b).state.isOpen then x.map (s.workEnded b .egress) else x) =
      x.map fun w => if (s.call b).state.isOpen then s.workEnded b .egress w else w := by
    intro b x
    split
    · rfl
    · exact Option.map_id'.symm
  rw [once, once, Option.map_map]
  congr 1
  funext w
  obtain ⟨q, card, snap, withdrawn, mark⟩ := w
  cases q with
  | desk _ => simp [workEnded]
  | channel c =>
    rcases hb : s.berthOf c with _ | (_ | _)
    · simp [workEnded, hb]
    · by_cases hopen : (s.call .b0).state.isOpen = true <;> simp [workEnded, hb, hopen]
    · simp [workEnded, hb]

namespace EntersEgress

variable {s t : State} {cause : EgressCause} {bus : Bus}

theorem allot (h : s.EntersEgress t cause bus) : t.tables.allot = [Berth.b0, .b1].foldl (fun l b =>
    if (s.call b).state.isOpen then Chan.all.foldl (s.allotEnded fun k => k.berth = b) l else l) s.tables.allot := by
  rw [h.frame]
  exact egressEntered_allot s cause

theorem journey (h : s.EntersEgress t cause bus) : t.engine.journey = [Berth.b0, .b1].foldl (fun j b =>
    if (s.call b).state.isOpen then Chan.all.foldl (s.journeyEnded fun k => k.berth = b) j else j)
    s.engine.journey := by
  rw [h.frame]
  exact egressEntered_journey s cause

theorem call (h : s.EntersEgress t cause bus) (b : Berth) : t.call b =
    if (s.call b).state.isOpen then { s.call b with state := .ended, endReason := .egress, endedAt := s.stamp }
    else s.call b := by
  rw [h.frame]
  exact egressEntered_call s cause b

theorem timers (h : s.EntersEgress t cause bus) {b : Berth} (hb : (s.call b).state.isOpen = true) :
    t.timersOf b = .stopped := by
  rw [h.frame]
  exact egressEntered_timers hb

theorem mem (h : s.EntersEgress t cause bus) {c : Chan} {k : Claim} (hk : k ∈ (t.claimsOf c).every) :
    (s.call k.berth).state.isOpen = false := by
  rw [h.frame] at hk
  exact egressEntered_mem hk

theorem work (h : s.EntersEgress t cause bus) : t.engine.work =
    s.engine.work.map fun w => match w.requester with
      | .desk _ => w
      | .channel c => match s.berthOf c with
        | none => w
        | some b => if (s.call b).state.isOpen then { w with mark := .egress } else w := by
  rw [h.frame]
  exact egressEntered_work s cause

/-- What stands beside the calls, their claims and the engine's cases. -/
theorem rest (h : s.EntersEgress t cause bus) : ∃ n m l a j w q, t = { s with
    bus := bus, calls := n, callTimers := m, claims := l, tables := { s.tables with allot := a }
    engine := { s.engine with journey := j, work := w, slot0 := none, slot1 := none }
    egress := s.egressOf cause
    notices := q, arbiter := t.arbiter, channels := t.channels, ports := t.ports } := by
  obtain ⟨n, m, l, a, j, w, _, hrest⟩ := egressEntered_rest s cause
  have hframe := h.frame
  rw [hrest] at hframe
  exact ⟨n, m, l, a, j, w, t.notices, hframe⟩

end EntersEgress

end Sys2Proof.Machine.State

open Sys2Proof Sys2Proof.Machine Sys2Proof.Machine.State

/-- Settles O41: either command enters egress by one event, whose calls end berth 0 before berth 1. -/
theorem egressIsEntered : Obligations.EgressIsEntered := by
  intro s i bus line hrun hactive h
  obtain ⟨t, hexec, hent⟩ : ∃ t, exec i s = .next t ∧
      ({ s with egress := { s.egress with level := line || s.egress.level } } : State).EntersEgress t
        (if line then .line else .command) bus := by
    rcases h with ⟨rfl, rfl, rfl⟩ | ⟨⟨dest, rfl, rfl⟩, rfl⟩
    · refine ⟨_, congrArg Host.Outcome.next ((whenRunning_running hrun _).trans
        (if_neg (Bool.eq_false_iff.mp hactive))), settle_entersEgress ..⟩
    · have hact : actEgressEnter s.beginRequest =
          .ok (settle s.beginRequest (s.beginRequest.enterEgress .command) []) (.alreadyActive false) :=
        if_neg (Bool.eq_false_iff.mp hactive)
      have hent := settle_entersEgress s.beginRequest s.beginRequest .command
      generalize settle s.beginRequest (s.beginRequest.enterEgress .command) [] = settled at *
      have hbus : settled.bus = s.beginRequest.bus := by rw [hent.frame]
      exact ⟨_, congrArg Host.Outcome.next (request_acts hrun hact hbus), hent.replied _⟩
  obtain ⟨_, _, _, _, _, _, _, hrest⟩ := hent.rest
  refine ⟨t, hexec, ?_, ?_, ?_, ?_, ?_, ?_, ⟨hent.gates.gate, hent.gates.line⟩, ?_, hent.allot, hent.journey, hent.call,
    fun b hb => hent.timers hb, fun c k hk => hent.mem hk, ?_, ?_, hent.desk, hent.occupied, hent.places, ?_, hent.held,
    queuesFirst_of_inOrder hent.order, ?_⟩
  · rw [hrest]
    cases line <;> rfl
  · rw [hrest]
  · rw [hrest]
  · rw [hrest]
  · rw [hrest]
  · rw [hrest]
  · rw [hrest]
  · rw [hrest]
    rfl
  · rw [hrest]
    rfl
  · have hengine : t.engine = { s.engine with
        work := t.engine.work, journey := t.engine.journey, slot0 := none, slot1 := none } := by
      rw [hrest]
    exact hengine.trans (congrArg (fun w => { s.engine with
      work := w, journey := t.engine.journey, slot0 := none, slot1 := none }) hent.work)
  · rw [List.flatMap_cons, List.flatMap_cons, List.flatMap_nil, List.append_nil]
    exact hent.order
end

section
/-! What an event's end leaves of the reader ports, when it queues nothing, and the ends of an awaited write. -/

namespace Sys2Proof.Machine

/-- What an event's end leaves of a port: the write it awaits and the frame going out, and a presentation that stays
outstanding or is answered. -/
structure Port.Settles (p q : Port) : Prop where
  awaited : q.awaited = p.awaited
  outstanding : q.outstanding = p.outstanding ∨ q.outstanding = none
  sending : p.sending ≠ none → q.sending = p.sending

theorem Port.Settles.same (p : Port) : p.Settles p := ⟨rfl, .inl rfl, fun _ => rfl⟩

theorem Port.Settles.trans {p q r : Port} (h : p.Settles q) (g : q.Settles r) : p.Settles r where
  awaited := g.awaited.trans h.awaited
  outstanding := by
    rcases g.outstanding with e | e
    · rw [e]
      exact h.outstanding
    · exact .inr e
  sending hp := by
    have e := h.sending hp
    rw [g.sending (e ▸ hp), e]

namespace State

/-! ### The ports at an event's end -/

/-- An event's end keeps the writes awaited and the frames going out; it answers no presentation but those in the
pending set. -/
structure PortsFollow (s t : State) : Prop where
  port : ∀ c, (s.port c).Settles (t.port c)
  place : ∀ c, s.arbiter.places.get c = none → t.arbiter.places.get c = none
  held : ∀ c, s.arbiter.places.get c = none → (t.port c).outstanding = (s.port c).outstanding

theorem PortsFollow.same {s t : State} (hp : t.ports = s.ports) (ha : t.arbiter = s.arbiter) : s.PortsFollow t where
  port c := by
    rw [State.port, State.port, hp]
    exact .same _
  place c h := by rwa [ha]
  held c _ := by rw [State.port, State.port, hp]

theorem PortsFollow.trans {s t u : State} (h : s.PortsFollow t) (g : t.PortsFollow u) : s.PortsFollow u where
  port c := (h.port c).trans (g.port c)
  place c hc := g.place c (h.place c hc)
  held c hc := (g.held c (h.place c hc)).trans (h.held c hc)

/-- A record is sent, or waits: nothing else of a port changes (R82). -/
theorem sendRecord_portsFollow (s : State) (c : Chan) (r : ReaderRecord) : s.PortsFollow (s.sendRecord c r) := by
  have harbiter : (s.sendRecord c r).arbiter = s.arbiter := by
    obtain ⟨_, _, h⟩ := sendRecord_frame s c r
    rw [h]
  have hport : ∀ d, (s.port d).Settles ((s.sendRecord c r).port d) ∧
      ((s.sendRecord c r).port d).outstanding = (s.port d).outstanding := by
    intro d
    unfold sendRecord
    split
    · next hidle =>
      rw [startRecord_port]
      split
      · next hd =>
        subst hd
        exact ⟨⟨rfl, .inl rfl, fun h => absurd (Option.isNone_iff_eq_none.mp hidle) h⟩, rfl⟩
      · exact ⟨.same _, rfl⟩
    · rw [port_setPort]
      split
      · next hd =>
        subst hd
        exact ⟨⟨rfl, .inl rfl, fun _ => rfl⟩, rfl⟩
      · exact ⟨.same _, rfl⟩
  exact ⟨fun d => (hport d).1, fun d h => by rwa [harbiter], fun d _ => (hport d).2⟩

/-- A verdict with no write answers the presentation of its channel, and awaits nothing (R84, R85). -/
theorem deliver_port {s : State} {c : Chan} {v : Verdict} (hv : v.writeBack = none) (d : Chan) :
    (s.port d).Settles ((s.deliver c v).port d) ∧
      (d ≠ c → ((s.deliver c v).port d).outstanding = (s.port d).outstanding) := by
  unfold deliver
  split
  · exact ⟨.same _, fun _ => rfl⟩
  · rw [hv]
    have hsent := (sendRecord_portsFollow
      (s.setPort c { s.port c with outstanding := none, awaited := (s.port c).awaited }) c (.verdict v)).port d
    have hheld : (((s.setPort c { s.port c with outstanding := none, awaited := (s.port c).awaited }).sendRecord c
        (.verdict v)).port d).outstanding =
        ((s.setPort c { s.port c with outstanding := none, awaited := (s.port c).awaited }).port d).outstanding := by
      obtain ⟨_, _, h⟩ := sendRecord_port
        (s.setPort c { s.port c with outstanding := none, awaited := (s.port c).awaited }) c d (.verdict v)
      rw [h]
    rw [port_setPort] at hsent hheld
    refine ⟨Port.Settles.trans ?_ hsent, fun hd => ?_⟩
    · split
      · next hd =>
        subst hd
        exact ⟨rfl, .inr rfl, fun _ => rfl⟩
      · exact .same _
    · rw [if_neg hd] at hheld
      exact hheld

theorem refusePending_portsFollow (s : State) (c : Chan) (code : VerdictCode) :
    s.PortsFollow (s.refusePending c code) := by
  have hplaces := refusePending_places s c
  refine ⟨fun d => ?_, fun d h => ?_, fun d h => ?_⟩
  · unfold refusePending
    split
    · exact .same _
    · next p _ =>
      have h := deliver_port (s := { s with arbiter := { s.arbiter with places := s.arbiter.places.set c none } })
        (c := c) (v := plainVerdict p.card code) rfl d
      exact h.1
  · rw [hplaces, h, ite_self]
  · unfold refusePending
    split
    · rfl
    · next p hp =>
      refine (deliver_port (s := { s with arbiter := { s.arbiter with places := s.arbiter.places.set c none } })
        (c := c) (v := plainVerdict p.card code) rfl d).2 ?_
      rintro rfl
      rw [hp] at h
      cases h

theorem tellArbiter_portsFollow (old s : State) (c : Chan) : s.PortsFollow (tellArbiter old s c) := by
  unfold tellArbiter
  split
  · exact .same rfl rfl
  · split
    · exact .same rfl rfl
    · exact refusePending_portsFollow s c _

theorem showMode_portsFollow (s : State) (c : Chan) : s.PortsFollow (s.showMode c) := by
  unfold showMode
  dsimp only
  split
  · exact PortsFollow.trans (t := s.setChan c _) (.same rfl rfl) (sendRecord_portsFollow _ c _)
  · exact .same rfl rfl

theorem settleChannel_portsFollow (s : State) (c : Chan) : s.PortsFollow (s.settleChannel c) := by
  have reported : s.PortsFollow (reportState s (s.takeState c) c) := by
    obtain ⟨_, h⟩ := reportState_frame s (s.takeState c) c
    rw [h]
    exact .same rfl rfl
  exact (reported.trans (tellArbiter_portsFollow s _ c)).trans (showMode_portsFollow _ c)

theorem settle_portsFollow (before s : State) (after : List Notice) : s.PortsFollow (settle before s after) := by
  rw [settle_eq]
  obtain ⟨q, hq⟩ := queueAll_frame s (crossing before s .b0 ++ crossing before s .b1 ++ after)
  have queued : s.PortsFollow (s.queueAll (crossing before s .b0 ++ crossing before s .b1 ++ after)) := by
    rw [hq]
    exact .same rfl rfl
  exact queued.trans <| (settleChannel_portsFollow _ .c0).trans <| (settleChannel_portsFollow _ .c1).trans <|
    (settleChannel_portsFollow _ .c2).trans (settleChannel_portsFollow _ .c3)

theorem select_port (s : State) (c : Chan) : s.select.port c = s.port c := by
  obtain ⟨_, _, _, h⟩ := select_frame s
  rw [h]
  rfl

theorem settleSelect_port (before s : State) (after : List Notice) (c : Chan) :
    (s.port c).Settles ((settle before s after).select.port c) := by
  rw [select_port]
  exact (settle_portsFollow before s after).port c

/-! ### An event's end that queues nothing -/

/-- A channel is in its derived state and drives that state's lines. -/
structure DerivedAt (s : State) (c : Chan) : Prop where
  state : (s.chan c).state = s.deriveState c
  lines : ((s.chan c).unlockIn, (s.chan c).unlockOut) = s.lines c (s.chan c).state

theorem settleChannel_quiet {s : State} {c : Chan} (h : s.DerivedAt c) : (s.settleChannel c).notices = s.notices := by
  have hlines := h.lines
  rw [h.state] at hlines
  obtain ⟨hin, hout⟩ := Prod.mk.inj hlines
  have htaken : ((s.takeState c).chan c).state = (s.chan c).state ∧
      ((s.takeState c).chan c).unlockIn = (s.chan c).unlockIn ∧
      ((s.takeState c).chan c).unlockOut = (s.chan c).unlockOut := by
    simp only [takeState, chan_setChan, if_true]
    exact ⟨h.state.symm, hin.symm, hout.symm⟩
  obtain ⟨hstate, hin, hout⟩ := htaken
  obtain ⟨_, _, hshown⟩ := showMode_frame (tellArbiter s (reportState s (s.takeState c) c) c) c
  obtain ⟨_, _, _, htold⟩ := tellArbiter_frame s (reportState s (s.takeState c) c) c
  unfold settleChannel
  dsimp only
  rw [hshown, htold]
  show (reportState s (s.takeState c) c).notices = _
  unfold reportState
  dsimp only
  rw [hstate, hin, hout, if_neg (by simp)]
  rfl

theorem settleChannel_derived {s : State} {c d : Chan} (hd : d ≠ c) (h : s.DerivedAt d) :
    (s.settleChannel c).DerivedAt d := by
  have hinputs := settleChannel_same s c d
  obtain ⟨t, ht⟩ := settleChannel_chan_other s hd
  exact ⟨by rw [hinputs.deriveState, ht]; exact h.state, by rw [hinputs.lines, ht]; exact h.lines⟩

/-- An event that moves no headroom, and after which every channel is in its derived state, ends with no notice. -/
theorem settle_quiet {before s : State} (hcross : ∀ b, crossing before s b = []) (h : ∀ c, s.DerivedAt c) :
    (settle before s []).notices = s.notices := by
  have h1 := settleChannel_derived (c := .c0) (d := .c1) (by decide) (h .c1)
  have h2 := settleChannel_derived (c := .c1) (d := .c2) (by decide)
    (settleChannel_derived (c := .c0) (by decide) (h .c2))
  have h3 := settleChannel_derived (c := .c2) (d := .c3) (by decide)
    (settleChannel_derived (c := .c1) (by decide) (settleChannel_derived (c := .c0) (by decide) (h .c3)))
  rw [settle_eq, hcross, hcross]
  show s.settleChannels.notices = _
  rw [settleChannels, settleChannel_quiet h3, settleChannel_quiet h2, settleChannel_quiet h1, settleChannel_quiet (h .c0)]

/-! ### The claim of a write (R36 to R39) -/

theorem takeTag_none {tag : Nat} {ks : List Claim} (h : ∀ x ∈ ks, x.tag ≠ some tag) : takeTag tag ks = none := by
  induction ks with
  | nil => rfl
  | cons k ks ih =>
    rw [takeTag, if_neg (h k List.mem_cons_self), ih fun x hx => h x (List.mem_cons_of_mem _ hx)]
    rfl

theorem takeTag_append {tag : Nat} {xs ys : List Claim} {k : Claim} (hxs : ∀ x ∈ xs, x.tag ≠ some tag)
    (hk : k.tag = some tag) : takeTag tag (xs ++ k :: ys) = some (k, xs ++ ys) := by
  induction xs with
  | nil => exact if_pos hk
  | cons x xs ih =>
    rw [List.cons_append, takeTag, if_neg (hxs x List.mem_cons_self),
      ih fun y hy => hxs y (List.mem_cons_of_mem _ hy)]
    rfl

theorem joinLive_eq (window : Nat) (live : List Claim) (k : Claim) :
    joinLive window live k = live ++ [{ k with window := if live = [] then window else 0 }] := by
  cases live <;> rfl

/-- The record of a call with a confirmed claim's fare (R3). -/
theorem countFare_eq (s : State) (k : Claim) : s.countFare k = s.setCall k.berth
    (if k.kind = .account then { s.call k.berth with
        accountFares := min ((s.call k.berth).accountFares + k.fare) Config.fareTotalMax }
      else { s.call k.berth with fares := min ((s.call k.berth).fares + k.fare) Config.fareTotalMax }) := by
  unfold countFare
  cases k.kind <;> rfl

/-- The journey list with the entry of a write's end, where the claim carries a card (R117, R118). -/
def entered (s : State) (c : Chan) (k : Claim) (tag : Nat) (outcome : JourneyOutcome) : List JourneyEntry :=
  match k.card with
  | none => s.engine.journey
  | some id => (if s.engine.journey.length < Config.journeySize then s.engine.journey
      else s.engine.journey.drop 1) ++
    [⟨id, s.uptime, k.berth, (s.call k.berth).line, outcome, k.fare, s.chargeFor c tag, tag⟩]

/-- An entry names the line of its claim's call, and no other figure of it. -/
theorem entered_setCall {s : State} {b : Berth} {m : Call} (hline : m.line = (s.call b).line) (c : Chan) (k : Claim)
    (tag : Nat) (outcome : JourneyOutcome) :
    (s.setCall b m).entered c k tag outcome = s.entered c k tag outcome := by
  have hcall : ((s.setCall b m).call k.berth).line = (s.call k.berth).line := by
    rw [call_setCall]
    split
    · next h => rw [hline, h]
    · rfl
  unfold entered
  rw [hcall]
  rfl

theorem recordWrite_eq (s : State) (c : Chan) (k : Claim) (tag : Nat) (outcome : JourneyOutcome) :
    s.recordWrite c k tag outcome = s.setJourney (s.entered c k tag outcome) := by
  unfold recordWrite entered
  cases k.card <;> rfl

theorem returnSeats_eq (s : State) (k : Claim) :
    s.returnSeats k = s.withLists (allotReturned s.tables.allot k) s.engine.journey := by
  unfold returnSeats modClaimAllot allotReturned
  cases k.allot <;> rfl

variable {s : State} {c : Chan} {tag : Nat} {k : Claim} {rest : List Claim}

theorem writeDone_eq (h : takeTag tag (s.claimsOf c).provisional = some (k, rest)) : s.writeDone c tag =
    ((s.setClaims c ⟨(s.claimsOf c).live ++
      [{ k with window := if (s.claimsOf c).live = [] then s.windowOf c else 0 }], rest⟩).setCall k.berth
      (if k.kind = .account then { s.call k.berth with
          accountFares := min ((s.call k.berth).accountFares + k.fare) Config.fareTotalMax }
        else { s.call k.berth with fares := min ((s.call k.berth).fares + k.fare) Config.fareTotalMax })).setJourney
      (s.entered c k tag .admitted) := by
  unfold writeDone
  rw [h]
  dsimp only
  rw [recordWrite_eq, countFare_eq, joinLive_eq, entered_setCall]
  · rfl
  · split <;> rfl

theorem writeFailed_eq (h : takeTag tag (s.claimsOf c).provisional = some (k, rest)) : s.writeFailed c tag =
    (s.setClaims c { s.claimsOf c with provisional := rest }).withLists (allotReturned s.tables.allot k)
      s.engine.journey := by
  unfold writeFailed
  rw [h]
  exact returnSeats_eq _ k

theorem writeUnknown_eq (h : takeTag tag (s.claimsOf c).provisional = some (k, rest)) (hk : k.tag = some tag) :
    s.writeUnknown c tag = (s.setClaims c { s.claimsOf c with provisional := rest }).withLists
      (allotReturned s.tables.allot k) (s.entered c k tag .uncertain) := by
  unfold writeUnknown
  rw [h]
  dsimp only
  unfold unknownEffects
  rw [hk]
  dsimp only
  rw [recordWrite_eq, returnSeats_eq]
  rfl

end State

end Sys2Proof.Machine
end

section
/-! The end of an awaited write: WRITE_RESULT and the write timer's run-out. -/

namespace Sys2Proof.Machine.State

variable {s : State} {c : Chan} {w : AwaitedWrite}

/-- A port whose reader has been heard (R76). -/
def heard (p : Port) : Port := { p with receiver := .hunting false, inactivity := some Config.inactivityMs }

/-- The state with a port's awaited write ended. -/
def unawaited (s : State) (c : Chan) (p : Port) : State := s.setPort c { p with awaited := none }

/-- A WRITE_RESULT on a line that is UP is taken with its tag (R77, R85). -/
theorem exec_writeResult {body : List Octet} {tag : Nat} {ok : Bool} (hrun : s.power = .running)
    (hup : (s.port c).line = .up) (hbody : writeResultOf body = some (tag, ok)) :
    exec (.writeResult c body) s = .next ((s.setPort c (heard (s.port c))).takeWriteResult c tag ok) := by
  refine congrArg Host.Outcome.next ((whenRunning_running hrun _).trans ?_)
  have hup' : ((s.setPort c (heard (s.port c))).port c).line = .up := by
    rw [port_setPort, if_pos rfl]
    exact hup
  unfold hearReader
  rw [hup]
  dsimp only
  show (s.setPort c (heard (s.port c))).whenUp c _ = _
  unfold whenUp
  rw [hup']
  dsimp only
  rw [hbody]

theorem setPort_setPort (s : State) (c : Chan) (p q : Port) : (s.setPort c p).setPort c q = s.setPort c q := by
  cases c <;> rfl

theorem takeWriteResult_other {tag : Nat} {ok : Bool} {p : Port} (hp : p.awaited = some w) (htag : tag ≠ w.tag) :
    (s.setPort c p).takeWriteResult c tag ok = s.setPort c p := by
  have hport : (s.setPort c p).port c = p := by rw [port_setPort, if_pos rfl]
  unfold takeWriteResult
  rw [hport, hp]
  exact if_pos htag.symm

theorem takeWriteResult_same {ok : Bool} {p : Port} (hp : p.awaited = some w) :
    (s.setPort c p).takeWriteResult c w.tag ok = (settle (s.setPort c p)
      (if ok then (s.unawaited c p).writeDone c w.tag else (s.unawaited c p).writeFailed c w.tag) []).select := by
  have hport : (s.setPort c p).port c = p := by rw [port_setPort, if_pos rfl]
  unfold takeWriteResult
  rw [hport, hp]
  refine (if_neg (not_not.mpr rfl)).trans ?_
  rw [setPort_setPort]
  rfl

theorem writeDone_none {tag : Nat} (h : takeTag tag (s.claimsOf c).provisional = none) : s.writeDone c tag = s := by
  unfold writeDone
  rw [h]

theorem writeFailed_none {tag : Nat} (h : takeTag tag (s.claimsOf c).provisional = none) : s.writeFailed c tag = s := by
  unfold writeFailed
  rw [h]

theorem writeUnknown_none {tag : Nat} (h : takeTag tag (s.claimsOf c).provisional = none) :
    s.writeUnknown c tag = s := by
  unfold writeUnknown
  rw [h]

theorem exec_writeTimerExpiry (hrun : s.power = .running) (hw : (s.port c).awaited = some w) (hleft : w.left = 0) :
    exec (.writeTimerExpiry c) s =
      .next (settle s ((s.unawaited c (s.port c)).writeUnknown c w.tag) []).select := by
  refine congrArg Host.Outcome.next ((whenRunning_running hrun _).trans ?_)
  unfold writeRunsOut endWriteUnknown
  rw [hw]
  exact if_pos hleft

/-- What the event that ends a write leaves of the channels and of the port. -/
theorem writeEnds {told : State} {p : Port} (before : State) (hports : told.ports = (s.unawaited c p).ports)
    (hchannels : told.channels = s.channels) :
    (s.setPort c p).GatesKept (settle before told []).select ∧ ((settle before told []).select.port c).awaited = none := by
  have hp : ∀ q, (s.setPort c q).port c = q := fun q => by rw [port_setPort, if_pos rfl]
  refine ⟨GatesKept.trans ?_ (settleSelect_gates before told []), ?_⟩
  · have ended := setPort_gates (s.setPort c p) c { p with awaited := none } (by rw [hp]; exact ⟨rfl, rfl, rfl, rfl⟩)
    rw [setPort_setPort] at ended
    exact ended.trans (.same hchannels hports)
  · have hport : told.port c = { p with awaited := none } := by
      rw [port, hports]
      exact hp _
    rw [(settleSelect_port before told [] c).awaited, hport]

/-- The end of a write that has no claim moves nothing that a channel's state or a call's headroom depends on. -/
theorem unawaited_quiet {before : State} {p : Port} (hbefore : ∀ b, before.headroom b = s.headroom b)
    (hline : p.line = (s.port c).line) (hrun : s.power = .running) (h : Safety.ChannelsDerived s) :
    (settle before (s.unawaited c p) []).select.notices = s.notices := by
  rw [select_notices]
  refine settle_quiet (fun b => crossing_same (hbefore b).symm) fun d => ?_
  have hinputs : SameInputs s (s.unawaited c p) d := by
    refine ⟨rfl, rfl, rfl, rfl, rfl, rfl, ?_⟩
    rw [unawaited, port_setPort]
    split
    · next hd => rw [hd, ← hline]
    · rfl
  obtain ⟨hstate, hlines, -⟩ := h hrun d
  exact ⟨by rw [hinputs.deriveState]; exact hstate, by rw [hinputs.lines]; exact hlines⟩

end Sys2Proof.Machine.State

open Sys2Proof Sys2Proof.Machine Sys2Proof.Machine.State

/-- Settles O58: the tag finds the claim or finds none, and the event that ends the write follows. -/
theorem writesEnd : Obligations.WritesEnd := by
  intro s c w hrun hw
  have hheard : (heard (s.port c)).awaited = some w := hw
  refine ⟨fun body tag ok hup hbody htag => ?_, fun i p hnone hi => ?_, ?_⟩
  · rw [exec_writeResult hrun hup hbody, takeWriteResult_other hheard htag]
    rfl
  · obtain ⟨before, hexec, hbefore, hline⟩ : ∃ before,
        exec i s = .next (settle before (s.unawaited c p) []).select ∧
          (∀ b, before.headroom b = s.headroom b) ∧ p.line = (s.port c).line := by
      have hnone' : ∀ q, takeTag w.tag ((s.unawaited c q).claimsOf c).provisional = none := fun q => takeTag_none hnone
      rcases hi with ⟨body, ok, rfl, hup, hbody, rfl⟩ | ⟨rfl, hleft, rfl⟩
      · have hexec := (exec_writeResult hrun hup hbody).trans (congrArg Host.Outcome.next (takeWriteResult_same hheard))
        rw [writeDone_none (hnone' _), writeFailed_none (hnone' _), ite_self] at hexec
        exact ⟨_, hexec, fun _ => rfl, rfl⟩
      · have hexec := exec_writeTimerExpiry hrun hw hleft
        rw [writeUnknown_none (hnone' _)] at hexec
        exact ⟨_, hexec, fun _ => rfl, rfl⟩
    obtain ⟨hgates, hawaited⟩ := writeEnds (s := s) (c := c) (p := p) (told := s.unawaited c p) before rfl rfl
    obtain ⟨_, _, _, _, _, hframe⟩ := settleSelect_frame before (s.unawaited c p) []
    refine ⟨_, hexec, ?_, hgates, hawaited, unawaited_quiet hbefore hline hrun⟩
    rw [hframe]
    rfl
  · rintro xs ys k hclaims hxs hk allot entry hallot hentry
    have htake : ∀ q, takeTag w.tag ((s.unawaited c q).claimsOf c).provisional = some (k, xs ++ ys) := by
      intro q
      show takeTag w.tag (s.claimsOf c).provisional = _
      rw [hclaims]
      exact takeTag_append hxs hk
    have hallot : allotReturned s.tables.allot k = allot := by
      rw [hallot]
      unfold allotReturned
      cases k.allot <;> rfl
    have hentry : ∀ outcome, s.entered c k w.tag outcome = entry outcome := by
      intro outcome
      rw [hentry]
      unfold entered
      cases k.card <;> rfl
    refine ⟨fun body hup hbody => ?_, fun body hup hbody => ?_, fun hleft => ?_⟩
    · have hexec := (exec_writeResult hrun hup hbody).trans (congrArg Host.Outcome.next (takeWriteResult_same hheard))
      have hdone := writeDone_eq (htake (heard (s.port c)))
      rw [if_pos rfl] at hexec
      generalize (s.unawaited c (heard (s.port c))).writeDone c w.tag = told at hexec hdone
      refine ⟨_, hexec, ?_, writeEnds _ (by rw [hdone]; rfl) (by rw [hdone]; rfl)⟩
      obtain ⟨_, _, _, _, _, hframe⟩ := settleSelect_frame (s.setPort c (heard (s.port c))) told []
      rw [hframe, hdone, ← hentry]
      rfl
    · have hexec := (exec_writeResult hrun hup hbody).trans (congrArg Host.Outcome.next (takeWriteResult_same hheard))
      have hfailed := writeFailed_eq (htake (heard (s.port c)))
      rw [if_neg (by decide)] at hexec
      generalize (s.unawaited c (heard (s.port c))).writeFailed c w.tag = told at hexec hfailed
      refine ⟨_, hexec, ?_, writeEnds _ (by rw [hfailed]; rfl) (by rw [hfailed]; rfl)⟩
      obtain ⟨_, _, _, _, _, hframe⟩ := settleSelect_frame (s.setPort c (heard (s.port c))) told []
      rw [hframe, hfailed, ← hallot]
      rfl
    · have hexec := exec_writeTimerExpiry hrun hw hleft
      have hunknown := writeUnknown_eq (htake (s.port c)) hk
      generalize (s.unawaited c (s.port c)).writeUnknown c w.tag = told at hexec hunknown
      obtain ⟨hgates, hawaited⟩ := writeEnds (s := s) (c := c) (told := told) (p := s.port c) s
        (by rw [hunknown]; rfl) (by rw [hunknown]; rfl)
      have hkept : s.GatesKept (s.setPort c (s.port c)) := setPort_gates s c _ (.same _)
      refine ⟨_, hexec, ?_, hkept.trans hgates, hawaited⟩
      obtain ⟨_, _, _, _, _, hframe⟩ := settleSelect_frame s told []
      rw [hframe, hunknown, ← hallot, ← hentry]
      rfl
end

section
/-! Completed passages: the tallies, the call, and the claim that a passage moves. -/

namespace Sys2Proof.Machine

/-! ### The claim that a passage consumes (R44, R45, R119) -/

/-- The allotment table after one seat of a claim is passed (R160). -/
def allotPassed (l : List Allotment) (k : Claim) : List Allotment :=
  match k.allot with
  | none => l
  | some token => l.map fun a => if a.token = token then { a with held := a.held - 1, passed := a.passed + 1 } else a

/-- The journey list after a claim's last seat is passed (Table 6-8). -/
def journeyPassed (j : List JourneyEntry) (k : Claim) : List JourneyEntry :=
  match k.card with
  | none => j
  | some id => modifyLast (JourneyEntry.isOf id k.tag)
      (fun e => { e with outcome := if e.outcome = .admitted then .boarded else e.outcome }) j

theorem Claim.isEntry_iff {k : Claim} {id : CardId} (hcard : k.card = some id) (e : JourneyEntry) :
    k.IsEntry e ↔ e.isOf id k.tag = true := by
  unfold JourneyEntry.isOf
  constructor
  · rintro ⟨hid, htag, hadmitted⟩
    obtain rfl : id = e.card := Option.some.inj (hcard.symm.trans hid)
    cases ht : k.tag with
    | none => simp [hadmitted ht]
    | some tag => simp [htag tag ht]
  · intro h
    cases ht : k.tag with
    | none =>
      simp only [ht, Bool.and_eq_true, decide_eq_true_eq] at h
      exact ⟨by rw [hcard, h.1], fun tag h' => (nomatch ht.symm.trans h'), fun _ => h.2⟩
    | some tag =>
      simp only [ht, Bool.and_eq_true, decide_eq_true_eq] at h
      exact ⟨by rw [hcard, h.1], fun tag' h' => h.2.trans (Option.some.inj (ht.symm.trans h')),
        fun h' => nomatch ht.symm.trans h'⟩

/-- A claim with no entry in the list changes none. -/
theorem journeyPassed_of_none {j : List JourneyEntry} {k : Claim} (h : ∀ e ∈ j, ¬k.IsEntry e) :
    journeyPassed j k = j := by
  unfold journeyPassed
  split
  · rfl
  · next id hid =>
    exact modifyLast_of_none _ _ _ fun e he => Bool.eq_false_iff.mpr fun hof => h e he ((k.isEntry_iff hid e).mpr hof)

/-- The newest entry of the claim is the one that changes (assumption 19). -/
theorem journeyPassed_newest {xs ys : List JourneyEntry} {e : JourneyEntry} {k : Claim} (he : k.IsEntry e)
    (hys : ∀ y ∈ ys, ¬k.IsEntry y) : journeyPassed (xs ++ e :: ys) k =
      xs ++ { e with outcome := if e.outcome = .admitted then .boarded else e.outcome } :: ys := by
  unfold journeyPassed
  rw [he.card]
  exact modifyLast_append _ _ _ _ _ ((k.isEntry_iff he.card e).mp he) fun y hy =>
    Bool.eq_false_iff.mpr fun hof => hys y hy ((k.isEntry_iff he.card y).mpr hof)

namespace State

theorem recordPassed_eq (s : State) (k : Claim) :
    s.recordPassed k = s.setJourney (journeyPassed s.engine.journey k) := by
  have same : (fun e : JourneyEntry => if e.outcome = .admitted then { e with outcome := .boarded } else e) =
      fun e => { e with outcome := if e.outcome = .admitted then .boarded else e.outcome } := by
    funext e
    split <;> rfl
  unfold recordPassed journeyPassed
  rw [same]
  cases k.card <;> rfl

/-- The record of a call with one boarding more of a claim's kind (R44). -/
def boardedCall (s : State) (b : Berth) (k : Claim) : Call :=
  { s.call b with boarded := (s.call b).boarded.count k.kind }

/-- The live queue after one seat of its head is passed (R44, R45). -/
def passedQueue (window : Nat) (k : Claim) (ks : List Claim) : List Claim :=
  if k.passed + 1 < k.granted then { k with passed := k.passed + 1, window := window } :: ks else promote window ks

theorem consumeSeat_eq (s : State) (c : Chan) (b : Berth) (k : Claim) (ks : List Claim) : s.consumeSeat c b k ks =
    ((s.setCall b (s.boardedCall b k)).setClaims c
      { s.claimsOf c with live := passedQueue (s.windowOf c) k ks }).withLists (allotPassed s.tables.allot k)
      (if k.passed + 1 < k.granted then s.engine.journey else journeyPassed s.engine.journey k) := by
  have hallot : ∀ u : State, u.modClaimAllot k Allotment.pass = u.withLists (allotPassed u.tables.allot k) u.engine.journey := by
    intro u
    unfold modClaimAllot allotPassed
    cases k.allot <;> rfl
  unfold consumeSeat passedQueue
  dsimp only
  rw [hallot]
  split
  · rfl
  · rw [recordPassed_eq]
    rfl

/-! ### The event of a passage (R57, R59, R68) -/

/-- The tallies of a channel after a passage (R68). -/
def passageTallies (t : Tallies) (d : Direction) (held : Bool) : Tallies :=
  match d, held with
  | .inward, false => { t with inward := bump t.inward }
  | .outward, false => { t with outward := bump t.outward }
  | .inward, true => { t with egressIn := bump t.egressIn }
  | .outward, true => { t with egressOut := bump t.egressOut }

/-- A channel whose tracker is back at CLEAR, with its tallies. -/
def clearTracker (s : State) (c : Chan) (beam : Beam) (broken : Bool) (t : Tallies) : State :=
  (s.takeBeam c beam broken .clear).setTallies c t

theorem setTallies_setTallies (s : State) (c : Chan) (t u : Tallies) :
    (s.setTallies c t).setTallies c u = s.setTallies c u := by
  cases c <;> rfl

theorem clearTracker_tallies (s : State) (c : Chan) (beam : Beam) (broken : Bool) (t : Tallies) :
    ((s.clearTracker c beam broken t).chan c).tallies = t := by
  rw [clearTracker, chan_setTallies, if_pos rfl]

/-- The event of a completed passage (R57, R60). -/
theorem beamMoves_passage {s : State} {c : Chan} {beam : Beam} {broken : Bool} {d : Direction}
    (h : (s.chan c).tracker.move beam broken = some (.clear, some d)) : s.beamMoves c beam broken =
      (settle s ((s.takeBeam c beam broken .clear).routePassage c d) (s.obstructionOver c)).select := by
  have hcleared : s.clearedNotice c .clear = s.obstructionOver c := by
    unfold clearedNotice obstructionOver
    cases (s.chan c).obstructedAt <;> rfl
  unfold beamMoves
  rw [h]
  dsimp only
  rw [hcleared]

theorem takeBeam_chan (s : State) (c : Chan) (beam : Beam) (broken : Bool) (t : Tracker) :
    ((s.takeBeam c beam broken t).chan c).state = (s.chan c).state ∧
      ((s.takeBeam c beam broken t).chan c).tallies = (s.chan c).tallies := by
  unfold takeBeam
  dsimp only
  rw [chan_setChan, if_pos rfl]
  exact ⟨rfl, rfl⟩

theorem tallyPassage_eq (s : State) (c : Chan) (beam : Beam) (broken : Bool) (d : Direction) (held : Bool) :
    (s.takeBeam c beam broken .clear).tallyPassage c d held =
      s.clearTracker c beam broken (passageTallies (s.chan c).tallies d held) := by
  unfold tallyPassage
  dsimp only
  rw [(takeBeam_chan s c beam broken .clear).2]
  cases d <;> cases held <;> rfl

variable {s : State} {c : Chan} {beam : Beam} {broken : Bool} {d : Direction}

/-- A passage of an EGRESS_HELD channel, which counts in its egress tally alone (R68). -/
theorem routePassage_held (h : (s.chan c).state = .egressHeld) :
    (s.takeBeam c beam broken .clear).routePassage c d =
      s.clearTracker c beam broken (passageTallies (s.chan c).tallies d true) := by
  unfold routePassage
  rw [(takeBeam_chan s c beam broken .clear).1, if_pos h, tallyPassage_eq]

/-- A passage with no open call to count it against (R59, R68). -/
theorem routePassage_stray (h : (s.chan c).state ≠ .egressHeld)
    (hnone : ∀ b, s.berthOf c = some b → (s.call b).state.isOpen = false) :
    (s.takeBeam c beam broken .clear).routePassage c d =
      s.clearTracker c beam broken { passageTallies (s.chan c).tallies d false with
        stray := bump (s.chan c).tallies.stray } := by
  have hstray : (s.clearTracker c beam broken (passageTallies (s.chan c).tallies d false)).strayPassage c =
      s.clearTracker c beam broken { passageTallies (s.chan c).tallies d false with
        stray := bump (s.chan c).tallies.stray } := by
    rw [strayPassage, clearTracker_tallies, clearTracker, setTallies_setTallies]
    cases d <;> rfl
  have hberth : (s.takeBeam c beam broken .clear).berthOf c = s.berthOf c := rfl
  unfold routePassage
  rw [(takeBeam_chan s c beam broken .clear).1, if_neg h, tallyPassage_eq]
  dsimp only
  rw [hstray, hberth]
  cases hb : s.berthOf c with
  | none => rfl
  | some b => exact if_neg (Bool.eq_false_iff.mp (hnone b hb))

/-- A passage of a channel with an open call is the call's (R26, R44, R47). -/
theorem routePassage_open {b : Berth} (h : (s.chan c).state ≠ .egressHeld) (hb : s.berthOf c = some b)
    (hopen : (s.call b).state.isOpen = true) : (s.takeBeam c beam broken .clear).routePassage c d =
      (s.clearTracker c beam broken (passageTallies (s.chan c).tallies d false)).countPassage c b d := by
  have hberth : (s.takeBeam c beam broken .clear).berthOf c = some b := hb
  unfold routePassage
  rw [(takeBeam_chan s c beam broken .clear).1, if_neg h, tallyPassage_eq, hberth]
  exact if_pos hopen

end State

end Sys2Proof.Machine
end

section
/-! The event of a completed passage. -/

namespace Sys2Proof.Machine.State

/-- What an event with a selection leaves of what it did before its end, and its notices in their order. -/
theorem settleSelect_queued {s u : State} (before : State) (ns after : List Notice) (hu : u.notices = s.notices) :
    (∃ q a k p w, (settle before (u.queueAll ns) after).select = { u with
      notices := q, arbiter := a, channels := k, ports := p, engine := { u.engine with work := w } }) ∧
    u.GatesKept (settle before (u.queueAll ns) after).select ∧
    s.QueuesInOrder (settle before (u.queueAll ns) after).select
      (ns ++ (crossing before u .b0 ++ crossing before u .b1 ++ after)) := by
  have horder := settle_queued_inOrder (s := s) before ns after hu
  refine ⟨?_, (settle_queued_follow before u ns after).gates.trans (select_gates _), ?_⟩
  · obtain ⟨q, a, k, p, hsettled⟩ := settle_queued_frame before u ns after
    obtain ⟨a', k', w, hselected⟩ := select_frame (settle before (u.queueAll ns) after)
    exact ⟨q, a', k', p, w, by rw [hselected, hsettled]⟩
  · unfold QueuesInOrder at horder ⊢
    rwa [select_notices]

/-- The passage tallies of a channel are these. -/
def Tallied (t : State) (c : Chan) (x : Tallies) : Prop :=
  (t.chan c).tallies.inward = x.inward ∧ (t.chan c).tallies.outward = x.outward ∧
  (t.chan c).tallies.unpaid = x.unpaid ∧ (t.chan c).tallies.stray = x.stray ∧
  (t.chan c).tallies.egressIn = x.egressIn ∧ (t.chan c).tallies.egressOut = x.egressOut

theorem GatesKept.tallied {u t : State} (h : u.GatesKept t) {c : Chan} {x : Tallies} (hx : (u.chan c).tallies = x) :
    t.Tallied c x := by
  have hgate := h.gate c
  subst hx
  exact ⟨hgate.inward, hgate.outward, hgate.unpaid, hgate.stray, hgate.egressIn, hgate.egressOut⟩

/-- The state of a passage that is counted on an open call: the tallies, the record, the claims of the channel, the
allotments and the journey list. -/
def passed (s : State) (c : Chan) (beam : Beam) (broken : Bool) (x : Tallies) (b : Berth) (m : Call) (k : ChannelClaims)
    (allot : List Allotment) (journey : List JourneyEntry) : State :=
  (((s.clearTracker c beam broken x).setCall b m).setClaims c k).withLists allot journey

theorem passed_eq (s : State) (c : Chan) (beam : Beam) (broken : Bool) (x : Tallies) (b : Berth) (m : Call)
    (k : ChannelClaims) (allot : List Allotment) (journey : List JourneyEntry) :
    s.passed c beam broken x b m k allot journey = { s with
      calls := s.calls.set b m
      claims := s.claims.set c k
      tables := { s.tables with allot := allot }
      engine := { s.engine with journey := journey }
      channels := (s.clearTracker c beam broken x).channels } := rfl

/-- A passage that is counted moves the headroom of its call alone, where it moves the claims of no other. -/
theorem passed_crossings {s : State} {c : Chan} {beam : Beam} {broken : Bool} {x : Tallies} {b : Berth} {m : Call}
    {k : ChannelClaims} {allot : List Allotment} {journey : List JourneyEntry}
    (hopen : (s.call b).state.isOpen = true) (hm : m.state = (s.call b).state) (hvessel : m.vessel = (s.call b).vessel)
    (hk : ∀ d, d ≠ b → k.heldOn d = (s.claimsOf c).heldOn d) :
    crossing s (s.passed c beam broken x b m k allot journey) .b0 ++
        crossing s (s.passed c beam broken x b m k allot journey) .b1 =
      s.headroomNotice (s.passed c beam broken x b m k allot journey) b := by
  have hcall : ∀ d, (s.passed c beam broken x b m k allot journey).call d = if d = b then m else s.call d :=
    fun d => call_setCall (s.clearTracker c beam broken x) b d m
  rw [crossings_one (b := b), crossing_eq hopen]
  · rw [hcall, if_pos rfl, hm, hopen]
  · rw [hcall, if_pos rfl, hvessel]
  · intro d hd
    have hheld : (s.passed c beam broken x b m k allot journey).held d = s.held d := by
      have h := held_setClaims ((s.clearTracker c beam broken x).setCall b m) c k d
      have hclaims : ((s.clearTracker c beam broken x).setCall b m).claimsOf c = s.claimsOf c := rfl
      rw [hclaims, hk d hd] at h
      exact Nat.add_right_cancel h
    rw [headroom, headroom, aboard, aboard, hheld, hcall, if_neg hd]

/-- A passage counted on an open call, as one event. -/
structure Passes (s t : State) (c : Chan) (x : Tallies) (b : Berth) (m : Call) (k : ChannelClaims)
    (allot : List Allotment) (journey : List JourneyEntry) : Prop where
  frame : t = { s with
    calls := s.calls.set b (t.call b)
    claims := s.claims.set c (t.claimsOf c)
    tables := { s.tables with allot := t.tables.allot }
    engine := { s.engine with work := t.engine.work, journey := t.engine.journey }
    notices := t.notices
    arbiter := t.arbiter
    channels := t.channels
    ports := t.ports }
  call : t.call b = m
  claims : t.claimsOf c = k
  allot : t.tables.allot = allot
  journey : t.engine.journey = journey
  tallied : t.Tallied c x

theorem passed_event (s : State) (c : Chan) (beam : Beam) (broken : Bool) (x : Tallies) (b : Berth) (m : Call)
    (k : ChannelClaims) (allot : List Allotment) (journey : List JourneyEntry) (ns after : List Notice) :
    ∃ t, (settle s ((s.passed c beam broken x b m k allot journey).queueAll ns) after).select = t ∧
      s.Passes t c x b m k allot journey ∧
      ((s.call b).state.isOpen = true → m.state = (s.call b).state → m.vessel = (s.call b).vessel →
        (∀ d, d ≠ b → k.heldOn d = (s.claimsOf c).heldOn d) →
        s.QueuesInOrder t (ns ++ (s.headroomNotice t b ++ after))) := by
  obtain ⟨hframe, hgates, horder⟩ :=
    settleSelect_queued (s := s) (u := s.passed c beam broken x b m k allot journey) s ns after rfl
  have htallied := hgates.tallied (clearTracker_tallies s c beam broken x)
  generalize (settle s ((s.passed c beam broken x b m k allot journey).queueAll ns) after).select = t at *
  obtain ⟨q, a, l, p, w, hframe⟩ := hframe
  have hcall : t.call b = m := by
    rw [hframe]
    exact (call_setCall ..).trans (if_pos rfl)
  have hclaims : t.claimsOf c = k := by
    rw [hframe]
    exact (claimsOf_setClaims ..).trans (if_pos rfl)
  refine ⟨t, rfl, ⟨?_, hcall, hclaims, by rw [hframe]; rfl, by rw [hframe]; rfl, htallied⟩, fun hopen hm hvessel hk => ?_⟩
  · rw [hcall, hclaims, hframe, passed_eq]
  · have hroom : t.headroom b = (s.passed c beam broken x b m k allot journey).headroom b := by
      rw [hframe]
      rfl
    rw [passed_crossings hopen hm hvessel hk] at horder
    rw [headroomNotice, hroom]
    exact horder

/-! ### The three passages of an open call -/

/-- The record of a call after an outward passage (R26). -/
def outwardCall (k : Call) : Call :=
  if k.alighted < k.declared + k.boarded.sum then { k with alighted := min (k.alighted + 1) 65535 }
  else { k with excess := min (k.excess + 1) 65535 }

theorem set_claimsOf (s : State) (c : Chan) : s.claims.set c (s.claimsOf c) = s.claims := by
  cases c <;> rfl

/-- A passage that moves no claim. -/
theorem passed_claims_same (s : State) (c : Chan) (beam : Beam) (broken : Bool) (x : Tallies) (b : Berth) (m : Call) :
    s.passed c beam broken x b m (s.claimsOf c) s.tables.allot s.engine.journey =
      (s.clearTracker c beam broken x).setCall b m := by
  rw [passed_eq, set_claimsOf]
  rfl

theorem countPassage_outward (s : State) (c : Chan) (beam : Beam) (broken : Bool) (x : Tallies) (b : Berth) :
    (s.clearTracker c beam broken x).countPassage c b .outward =
      s.passed c beam broken x b (outwardCall (s.call b)) (s.claimsOf c) s.tables.allot s.engine.journey := by
  have haboard : 0 < (s.call b).aboard ↔ (s.call b).alighted < (s.call b).declared + (s.call b).boarded.sum := by
    rw [Call.aboard]
    omega
  have hcall : (s.clearTracker c beam broken x).call b = s.call b := rfl
  rw [passed_claims_same, countPassage, countOutward, hcall, outwardCall]
  simp only [haboard]
  split <;> rfl

theorem countPassage_claim {s : State} {c : Chan} {k : Claim} {ks : List Claim} (hlive : (s.claimsOf c).live = k :: ks)
    (beam : Beam) (broken : Bool) (x : Tallies) (b : Berth) :
    (s.clearTracker c beam broken x).countPassage c b .inward =
      s.passed c beam broken x b (s.boardedCall b k) { s.claimsOf c with live := passedQueue (s.windowOf c) k ks }
        (allotPassed s.tables.allot k)
        (if k.passed + 1 < k.granted then s.engine.journey else journeyPassed s.engine.journey k) := by
  have hlive' : ((s.clearTracker c beam broken x).claimsOf c).live = k :: ks := hlive
  unfold countPassage
  dsimp only
  rw [hlive']
  exact consumeSeat_eq ..

theorem countPassage_unpaid {s : State} {c : Chan} (hlive : (s.claimsOf c).live = []) (beam : Beam) (broken : Bool)
    (x : Tallies) (b : Berth) : (s.clearTracker c beam broken x).countPassage c b .inward =
      (s.passed c beam broken { x with unpaid := bump x.unpaid } b ((s.call b).unpaidBoarded.markedAt (s.held b))
        (s.claimsOf c) s.tables.allot s.engine.journey).queueAll
        (.unpaidPassage c b (s.call b).vessel (s.call b).unpaidBoarded.boarded.unpaid (s.call b).unpaidBoarded.aboard ::
          (s.call b).unpaidBoarded.markNotice b .unpaid (s.held b)) := by
  have hlive' : ((s.clearTracker c beam broken x).claimsOf c).live = [] := hlive
  unfold countPassage
  dsimp only
  rw [hlive']
  refine (unpaidBoarding_eq ..).trans ?_
  rw [passed_claims_same, clearTracker_tallies]
  have hput : ∀ (m : Call) (y : Tallies), ((s.clearTracker c beam broken x).setCall b m).setTallies c y =
      (s.clearTracker c beam broken y).setCall b m := by
    intro m y
    exact congrArg (fun u : State => u.setCall b m) (setTallies_setTallies (s.takeBeam c beam broken .clear) c x y)
  rw [hput]
  rfl

/-! ### A passage that no open call takes (R59, R68) -/

/-- The tallies after a passage of an EGRESS_HELD channel, or one with no open call. -/
def uncountedTallies (t : Tallies) (d : Direction) (held : Bool) : Tallies :=
  if held then passageTallies t d true else { passageTallies t d false with stray := bump t.stray }

/-- Each tally moves by one at most, in its own case, and saturates at 65535. -/
theorem uncountedTallies_eq (t : Tallies) (d : Direction) (held inward : Bool) (hd : inward = decide (d = .inward)) :
    (uncountedTallies t d held).egressIn = min (t.egressIn + if held && inward then 1 else 0)
      (if held && inward then 65535 else t.egressIn) ∧
    (uncountedTallies t d held).egressOut = min (t.egressOut + if held && !inward then 1 else 0)
      (if held && !inward then 65535 else t.egressOut) ∧
    (uncountedTallies t d held).inward = min (t.inward + if !held && inward then 1 else 0)
      (if !held && inward then 65535 else t.inward) ∧
    (uncountedTallies t d held).outward = min (t.outward + if !held && !inward then 1 else 0)
      (if !held && !inward then 65535 else t.outward) ∧
    (uncountedTallies t d held).stray = min (t.stray + if held then 0 else 1) (if held then t.stray else 65535) ∧
    (uncountedTallies t d held).unpaid = t.unpaid := by
  subst hd
  cases held <;> cases d <;> simp [uncountedTallies, passageTallies, bump, Config.countMax]

variable {s : State} {c : Chan} {beam : Beam} {broken : Bool} {d : Direction}

theorem routePassage_uncounted {held : Bool} (hheld : held = decide ((s.chan c).state = .egressHeld))
    (h : held = true ∨ ∀ b, s.berthOf c = some b → (s.call b).state.isOpen = false) :
    (s.takeBeam c beam broken .clear).routePassage c d =
      s.clearTracker c beam broken (uncountedTallies (s.chan c).tallies d held) := by
  by_cases hstate : (s.chan c).state = .egressHeld
  · rw [decide_eq_true hstate] at hheld
    subst hheld
    exact routePassage_held hstate
  · rw [decide_eq_false hstate] at hheld
    subst hheld
    exact routePassage_stray hstate (h.resolve_left Bool.false_ne_true)

theorem uncounted_event (s : State) (c : Chan) (beam : Beam) (broken : Bool) (x : Tallies) (after : List Notice) :
    ∃ t, (settle s (s.clearTracker c beam broken x) after).select = t ∧
      t = { s with
        engine := { s.engine with work := t.engine.work }
        notices := t.notices, arbiter := t.arbiter, channels := t.channels, ports := t.ports } ∧
      t.Tallied c x ∧ s.QueuesInOrder t after := by
  obtain ⟨⟨_, _, _, _, _, hframe⟩, hgates, horder⟩ :=
    settleSelect_queued (s := s) (u := s.clearTracker c beam broken x) s [] after rfl
  have hcross : ∀ b, crossing s (s.clearTracker c beam broken x) b = [] := fun b => crossing_same rfl
  rw [hcross, hcross] at horder
  replace hframe : (settle s (s.clearTracker c beam broken x) after).select = _ := hframe
  refine ⟨_, rfl, ?_, hgates.tallied (clearTracker_tallies s c beam broken x), horder⟩
  rw [hframe]
  rfl

/-! ### The seats of a channel after a boarding -/

/-- A boarding moves no seat of a call that is not its claim's. -/
theorem passedQueue_heldOn {x : ChannelClaims} {k : Claim} {ks : List Claim} (hlive : x.live = k :: ks) (window : Nat)
    {b : Berth} (hk : k.berth ≠ b) : ({ x with live := passedQueue window k ks } : ChannelClaims).heldOn b = x.heldOn b := by
  rw [ChannelClaims.heldOn, ChannelClaims.heldOn, hlive]
  unfold passedQueue
  split
  · simp only [heldIn, if_neg hk]
  · rw [heldIn_promote, heldIn, if_neg hk, Nat.zero_add]

end Sys2Proof.Machine.State

open Sys2Proof Sys2Proof.Machine Sys2Proof.Machine.State

/-- Settles O39: the two beam events that complete a passage, routed by the channel's state and its call. -/
theorem passagesAreCounted : Obligations.PassagesAreCounted := by
  intro s c i inward hrun hi
  obtain ⟨beam, broken, d, hexec, hd⟩ : ∃ beam broken d, exec i s = .next
      (settle s ((s.takeBeam c beam broken .clear).routePassage c d) (s.obstructionOver c)).select ∧
      inward = decide (d = .inward) := by
    rcases hi with ⟨rfl, htracker, rfl⟩ | ⟨rfl, htracker, rfl⟩
    · exact ⟨.shore, false, .outward, congrArg Host.Outcome.next ((whenRunning_running hrun _).trans
        (beamMoves_passage (by rw [htracker]; rfl))), rfl⟩
    · exact ⟨.vessel, false, .inward, congrArg Host.Outcome.next ((whenRunning_running hrun _).trans
        (beamMoves_passage (by rw [htracker]; rfl))), rfl⟩
  refine ⟨fun held hheld huncounted => ?_, fun b hstate hb hopen => ?_⟩
  · rw [routePassage_uncounted hheld huncounted] at hexec
    obtain ⟨t, ht, hframe, ⟨hin, hout, hunpaid, hstray, hegressIn, hegressOut⟩, horder⟩ :=
      uncounted_event s c beam broken (uncountedTallies (s.chan c).tallies d held) (s.obstructionOver c)
    obtain ⟨xegressIn, xegressOut, xin, xout, xstray, xunpaid⟩ :=
      uncountedTallies_eq (s.chan c).tallies d held inward hd
    exact ⟨t, ht ▸ hexec, hframe, hegressIn.trans xegressIn, hegressOut.trans xegressOut, hin.trans xin, hout.trans xout,
      hstray.trans xstray, hunpaid.trans xunpaid, horder⟩
  · rw [routePassage_open hstate hb hopen] at hexec
    cases d with
    | outward =>
      obtain rfl : inward = false := hd
      rw [countPassage_outward] at hexec
      obtain ⟨t, ht, hpasses, horder⟩ := passed_event s c beam broken (passageTallies (s.chan c).tallies .outward false) b
        (outwardCall (s.call b)) (s.claimsOf c) s.tables.allot s.engine.journey [] (s.obstructionOver c)
      obtain ⟨hin, hout, hunpaid, hstray, hegressIn, hegressOut⟩ := hpasses.tallied
      have hclaims : t.claims = s.claims := by
        rw [hpasses.frame, hpasses.claims, set_claimsOf]
      have htables : t.tables = s.tables := by
        rw [hpasses.frame, hpasses.allot]
      refine ⟨t, hexec.trans (congrArg Host.Outcome.next ht), hpasses.frame, hstray, hegressIn, hegressOut, fun _ =>
        ⟨hclaims, htables, hpasses.journey, hpasses.call, hout, hin, hunpaid, ?_⟩, nofun, nofun, nofun⟩
      refine horder hopen ?_ ?_ fun _ _ => rfl <;> unfold outwardCall <;> split <;> rfl
    | inward =>
      obtain rfl : inward = true := hd
      cases hlive : (s.claimsOf c).live with
      | nil =>
        rw [countPassage_unpaid hlive] at hexec
        obtain ⟨t, ht, hpasses, horder⟩ := passed_event s c beam broken
          { passageTallies (s.chan c).tallies .inward false with
            unpaid := bump (passageTallies (s.chan c).tallies .inward false).unpaid } b
          ((s.call b).unpaidBoarded.markedAt (s.held b)) (s.claimsOf c) s.tables.allot s.engine.journey
          (.unpaidPassage c b (s.call b).vessel (s.call b).unpaidBoarded.boarded.unpaid (s.call b).unpaidBoarded.aboard ::
            (s.call b).unpaidBoarded.markNotice b .unpaid (s.held b)) (s.obstructionOver c)
        obtain ⟨hin, hout, hunpaid, hstray, hegressIn, hegressOut⟩ := hpasses.tallied
        have hclaims : t.claims = s.claims := by
          rw [hpasses.frame, hpasses.claims, set_claimsOf]
        have htables : t.tables = s.tables := by
          rw [hpasses.frame, hpasses.allot]
        refine ⟨t, hexec.trans (congrArg Host.Outcome.next ht), hpasses.frame, hstray, hegressIn, hegressOut, nofun,
          fun _ => ⟨hin, hout⟩, fun _ k ks h => (by cases h), fun _ _ =>
          ⟨hclaims, htables, hpasses.journey, ?_, hunpaid, ?_⟩⟩
        · rw [hpasses.call]
          rfl
        · have hqueued := horder hopen rfl rfl fun _ _ => rfl
          rw [Call.markNotice_eq] at hqueued
          rw [aboard, hpasses.call, List.append_assoc]
          exact hqueued
      | cons k ks =>
        rw [countPassage_claim hlive] at hexec
        obtain ⟨t, ht, hpasses, horder⟩ := passed_event s c beam broken (passageTallies (s.chan c).tallies .inward false) b
          (s.boardedCall b k) { s.claimsOf c with live := passedQueue (s.windowOf c) k ks } (allotPassed s.tables.allot k)
          (if k.passed + 1 < k.granted then s.engine.journey else journeyPassed s.engine.journey k) [] (s.obstructionOver c)
        obtain ⟨hin, hout, hunpaid, hstray, hegressIn, hegressOut⟩ := hpasses.tallied
        refine ⟨t, hexec.trans (congrArg Host.Outcome.next ht), hpasses.frame, hstray, hegressIn, hegressOut, nofun,
          fun _ => ⟨hin, hout⟩, ?_, fun _ h => (by cases h)⟩
        rintro - _ _ ⟨rfl, rfl⟩
        refine ⟨hpasses.call, hpasses.claims, ?_, hunpaid, fun hk => ?_, fun h => ?_, fun hlast xs e ys hj he hys => ?_⟩
        · rw [hpasses.allot]
          unfold allotPassed
          cases k.allot <;> rfl
        · refine horder hopen rfl rfl fun d hd => passedQueue_heldOn hlive _ ?_
          exact fun e => hd (e ▸ hk)
        · rw [hpasses.journey]
          rcases h with hmore | hnone
          · exact if_pos hmore
          · rw [journeyPassed_of_none hnone, ite_self]
        · rw [hpasses.journey, if_neg (by omega), hj]
          exact journeyPassed_newest he hys
end

section
/-! Verdicts that answer a presentation, refusals of the pending set by changed settings, and the settings messages. -/

namespace Sys2Proof.Machine

/-! ### The value of a setting (Table 12-1) -/

theorem numSetting_eq {lo hi n : Nat} {v : SettingValue} (h : numSetting lo hi v = some n) : v = .num n := by
  unfold numSetting at h
  split at h
  · split at h
    · cases h
      rfl
    · cases h
  · cases h

theorem reportSetting_eq {n : Nat} {v : SettingValue} (h : reportSetting v = some n) : v = .num n := by
  unfold reportSetting at h
  split at h
  · cases h
    rfl
  · exact numSetting_eq h

theorem berthSetting_eq {b : Option Berth} {v : SettingValue} (h : berthSetting v = some b) : v = berthValue b := by
  unfold berthSetting at h
  split at h
  · cases h
    rfl
  · cases h
    rfl
  · cases h
    rfl
  · cases h

theorem postureSetting_eq {p : Posture} {v : SettingValue} (h : postureSetting v = some p) : v = .posture p := by
  unfold postureSetting at h
  split at h
  · cases h
    rfl
  · cases h

theorem fallbackSetting_eq {f : Fallback} {v : SettingValue} (h : fallbackSetting v = some f) : v = .fallback f := by
  unfold fallbackSetting at h
  split at h
  · cases h
    rfl
  · cases h

/-- A setting that is put has the value put, and had one before. -/
theorem Settings.value?_put {k m : Settings} {n : Nat} {v : SettingValue} (h : k.put n v = some m) :
    m.value? n = some v ∧ (k.value? n).isSome = true := by
  unfold Settings.put at h
  split at h
  case h_32 => cases h
  all_goals obtain ⟨x, hx, rfl⟩ := Option.map_eq_some_iff.mp h
  case h_3 | h_4 | h_5 | h_6 => exact ⟨congrArg some (berthSetting_eq hx).symm, rfl⟩
  case h_15 | h_16 | h_17 | h_18 => exact ⟨congrArg some (postureSetting_eq hx).symm, rfl⟩
  case h_22 | h_23 | h_24 => exact ⟨congrArg some (fallbackSetting_eq hx).symm, rfl⟩
  case h_29 => exact ⟨congrArg some (reportSetting_eq hx).symm, rfl⟩
  all_goals exact ⟨congrArg some (numSetting_eq hx).symm, rfl⟩

theorem berthSettingChan_eq_some {n : Nat} {c : Chan} : berthSettingChan n = some c ↔ n = 3 + c.num := by
  constructor
  · intro h
    unfold berthSettingChan at h
    split at h <;> cases h <;> rfl
  · rintro rfl
    cases c <;> rfl

namespace State

/-! ### Verdicts at a port (R82, R84) -/

variable {s t u : State} {c : Chan} {card : Card} {code : VerdictCode}

theorem sendRecord_port_other {d : Chan} (hd : d ≠ c) (r : ReaderRecord) : (s.sendRecord c r).port d = s.port d := by
  unfold sendRecord
  split
  · rw [startRecord_port, if_neg hd]
  · rw [port_setPort, if_neg hd]

theorem sendRecord_port_idle (h : (s.port c).sending = none) (r : ReaderRecord) :
    (s.sendRecord c r).port c = { s.port c with sending := some r } := by
  unfold sendRecord
  rw [h]
  exact (startRecord_port s c c r).trans (if_pos rfl)

theorem deliver_port_other {d : Chan} (hd : d ≠ c) (v : Verdict) : (s.deliver c v).port d = s.port d := by
  unfold deliver
  split
  · rfl
  · refine (sendRecord_port_other hd _).trans ?_
    rw [port_setPort, if_neg hd]

/-- A verdict with no write answers the presentation that is outstanding. -/
theorem deliver_answers (s : State) (c : Chan) (card : Card) (code : VerdictCode) :
    s.Answers (s.deliver c (plainVerdict card code)) c card code := by
  unfold deliver
  split
  · next h => exact ⟨h, fun hheld => absurd h hheld⟩
  · have hport : ∀ p, (s.setPort c p).port c = p := fun p => by rw [port_setPort, if_pos rfl]
    refine ⟨?_, fun _ hidle => ?_⟩
    · obtain ⟨_, _, h⟩ := sendRecord_port (s.setPort c { s.port c with
        outstanding := none, awaited := (s.port c).awaited }) c c (.verdict (plainVerdict card code))
      rw [hport] at h
      exact congrArg Port.outstanding h
    · refine congrArg Port.sending (sendRecord_port_idle ?_ _)
      rw [hport]
      exact hidle

/-- What an event's end leaves answers as before. -/
theorem Answers.settles (h : s.Answers u c card code) (hf : u.PortsFollow t) : s.Answers t c card code := by
  have hp := hf.port c
  refine ⟨?_, fun hheld hidle => ?_⟩
  · rcases hp.outstanding with e | e
    · rw [e, h.taken]
    · exact e
  · have hsent := h.verdict hheld hidle
    rw [hp.sending (by rw [hsent]; exact nofun), hsent]

theorem Answers.of_port (h : s.Answers t c card code) (hp : u.port c = s.port c) : u.Answers t c card code :=
  ⟨h.taken, fun hheld hidle => h.verdict (hp ▸ hheld) (hp ▸ hidle)⟩

theorem refusePending_answers {p : Pending} (hp : s.arbiter.places.get c = some p) (code : VerdictCode) :
    s.Answers (s.refusePending c code) c p.card code := by
  unfold refusePending
  rw [hp]
  exact (deliver_answers _ c p.card code).of_port rfl

theorem refusePending_port_other {d : Chan} (hd : d ≠ c) (code : VerdictCode) :
    (s.refusePending c code).port d = s.port d := by
  unfold refusePending
  split
  · rfl
  · exact deliver_port_other hd _

/-! ### A sweep of refusals -/

/-- The pending presentation of a channel is refused with a code, where there is one. -/
def refuseWith (s : State) (c : Chan) (code : Option VerdictCode) : State :=
  match code with
  | some code => s.refusePending c code
  | none => s

theorem refuseWith_portsFollow (s : State) (c : Chan) (code : Option VerdictCode) : s.PortsFollow (s.refuseWith c code) := by
  cases code with
  | none => exact .same rfl rfl
  | some code => exact refusePending_portsFollow s c code

theorem refuseWith_follow (s : State) (c : Chan) (code : Option VerdictCode) : s.ChannelsFollow (s.refuseWith c code) := by
  cases code with
  | none => exact .same rfl rfl rfl
  | some code => exact refusePending_follow s c code

theorem refuseWith_frame (s : State) (c : Chan) (code : Option VerdictCode) :
    ∃ a k p, s.refuseWith c code = { s with arbiter := a, channels := k, ports := p } := by
  cases code with
  | none => exact ⟨_, _, _, rfl⟩
  | some code => exact refusePending_frame s c code

theorem foldl_portsFollow {f : State → Chan → State} (hstep : ∀ (t : State) c, t.PortsFollow (f t c)) (cs : List Chan)
    (s : State) : s.PortsFollow (cs.foldl f s) := by
  induction cs generalizing s with
  | nil => exact .same rfl rfl
  | cons c cs ih => exact (hstep s c).trans (ih _)

/-- In a sweep each channel is refused with its own code: its place is empty after it, and what was pending there is
answered. -/
theorem foldl_refuseWith {codes : Chan → Option VerdictCode} {cs : List Chan} (hcs : cs.Nodup) (hc : c ∈ cs)
    (hcode : codes c = some code) (s : State) :
    (cs.foldl (fun t c => t.refuseWith c (codes c)) s).arbiter.places.get c = none ∧
    ∀ p, s.arbiter.places.get c = some p →
      s.Answers (cs.foldl (fun t c => t.refuseWith c (codes c)) s) c p.card code := by
  induction cs generalizing s with
  | nil => cases hc
  | cons d cs ih =>
    obtain ⟨hd, hcs⟩ := List.nodup_cons.mp hcs
    rw [List.foldl_cons]
    by_cases hdc : c = d
    · subst hdc
      rw [hcode]
      have later := foldl_portsFollow (fun t c => refuseWith_portsFollow t c (codes c)) cs (s.refusePending c code)
      exact ⟨later.place c ((refusePending_places s c c code).trans (if_pos rfl)),
        fun p hp => (refusePending_answers hp code).settles later⟩
    · obtain ⟨hplace, hanswers⟩ := ih hcs ((List.mem_cons.mp hc).resolve_left hdc) (s.refuseWith d (codes d))
      have hsame : (s.refuseWith d (codes d)).arbiter.places.get c = s.arbiter.places.get c ∧
          (s.refuseWith d (codes d)).port c = s.port c := by
        cases codes d with
        | none => exact ⟨rfl, rfl⟩
        | some code => exact ⟨(refusePending_places s d c code).trans (if_neg hdc), refusePending_port_other hdc code⟩
      exact ⟨hplace, fun p hp => (hanswers p (hsame.1.trans hp)).of_port hsame.2.symm⟩

end State

end Sys2Proof.Machine
end

section
/-! What changed settings refuse, and the settings messages. -/

namespace Sys2Proof.Machine.State

/-! ### Refusals by changed settings (R99) -/

/-- The verdict with which changed settings refuse a channel's pending presentation (R99). -/
def settingRefusal (s : State) (old : Settings) (c : Chan) : Option VerdictCode :=
  if s.cfg.level.get c = 0 && old.level.get c ≠ 0 then some .notServed
  else if (s.cfg.level.get c < old.level.get c || old.lastCallLevel < s.cfg.lastCallLevel) && s.belowLastCall c then
    some .notBoarding
  else none

/-- The sweep of changed settings over the channels (R99). -/
def sweepSettings (s : State) (old : Settings) (cs : List Chan) : State :=
  cs.foldl (fun t c => t.refuseWith c (s.settingRefusal old c)) s

theorem sweepSettings_frame (s : State) (old : Settings) (cs : List Chan) :
    ∃ a k p, s.sweepSettings old cs = { s with arbiter := a, channels := k, ports := p } :=
  refuseFold_frame _ cs (fun t c => refuseWith_frame t c _) s

/-- A refusal leaves what the settings' verdicts depend on. -/
theorem settingRefusal_congr {s t : State} (h : ∃ a k p, t = { s with arbiter := a, channels := k, ports := p })
    (old : Settings) (c : Chan) : t.settingRefusal old c = s.settingRefusal old c := by
  obtain ⟨a, k, p, rfl⟩ := h
  rfl

theorem refuseBySettings_eq (s : State) (old : Settings) : s.refuseBySettings old =
    if s.cfg.deskLevel = 0 && old.deskLevel ≠ 0 then (s.sweepSettings old Chan.all).refuseDesk .notServed
    else s.sweepSettings old Chan.all := by
  have one : ∀ (t : State) (c : Chan), (if t.cfg.level.get c = 0 && old.level.get c ≠ 0 then t.refusePending c .notServed
      else if (t.cfg.level.get c < old.level.get c || old.lastCallLevel < t.cfg.lastCallLevel) && t.belowLastCall c then
        t.refusePending c .notBoarding
      else t) = t.refuseWith c (t.settingRefusal old c) := by
    intro t c
    unfold refuseWith settingRefusal
    split
    · rfl
    · split <;> rfl
  have swept : ∀ (cs : List Chan) (t : State), (∃ a k p, t = { s with arbiter := a, channels := k, ports := p }) →
      cs.foldl (fun t c => t.refuseWith c (t.settingRefusal old c)) t =
        cs.foldl (fun t c => t.refuseWith c (s.settingRefusal old c)) t := by
    intro cs
    induction cs with
    | nil => exact fun _ _ => rfl
    | cons c cs ih =>
      intro t ht
      rw [List.foldl_cons, List.foldl_cons, settingRefusal_congr ht]
      refine ih _ ?_
      obtain ⟨_, _, _, rfl⟩ := ht
      obtain ⟨a, k, p, h⟩ := refuseWith_frame ({ s with arbiter := _, channels := _, ports := _ } : State) c
        (s.settingRefusal old c)
      exact ⟨a, k, p, h⟩
  have hcfg : (s.sweepSettings old Chan.all).cfg = s.cfg := by
    obtain ⟨_, _, _, h⟩ := sweepSettings_frame s old Chan.all
    rw [h]
    rfl
  unfold refuseBySettings
  dsimp only
  simp only [one]
  rw [swept _ _ ⟨_, _, _, rfl⟩, ← sweepSettings, hcfg]

/-- What the refusals of changed settings leave. -/
theorem refuseBySettings_settles (s : State) (old : Settings) (before : State) :
    s.GatesKept (settle before (s.refuseBySettings old) []) ∧
    (∀ c code, s.settingRefusal old c = some code →
      (settle before (s.refuseBySettings old) []).arbiter.places.get c = none ∧
      ∀ p, s.arbiter.places.get c = some p → s.Answers (settle before (s.refuseBySettings old) []) c p.card code) ∧
    (s.cfg.deskLevel = 0 → old.deskLevel ≠ 0 → (settle before (s.refuseBySettings old) []).arbiter.desk = none) := by
  have hfollow := settle_follow before (s.refuseBySettings old) []
  have hports := settle_portsFollow before (s.refuseBySettings old) []
  have hdesk := refuseBySettings_eq s old
  have hgates : s.GatesKept (s.sweepSettings old Chan.all) :=
    (foldl_follow (fun t c => refuseWith_follow t c (s.settingRefusal old c)) Chan.all s).gates
  obtain ⟨_, hrefused⟩ := refuseDesk_eq (s.sweepSettings old Chan.all) .notServed
  have hlast : (s.sweepSettings old Chan.all).PortsFollow (s.refuseBySettings old) ∧
      (s.sweepSettings old Chan.all).GatesKept (s.refuseBySettings old) := by
    rw [hdesk]
    split
    · rw [hrefused]
      exact ⟨⟨fun _ => .same _, fun _ h => h, fun _ _ => rfl⟩, .same rfl rfl⟩
    · exact ⟨.same rfl rfl, .same rfl rfl⟩
  have hend := hlast.1.trans hports
  refine ⟨(hgates.trans hlast.2).trans hfollow.gates, fun c code hcode => ?_, fun hnew hold => ?_⟩
  · obtain ⟨hplace, hanswers⟩ := foldl_refuseWith (codes := s.settingRefusal old) (cs := Chan.all) (by decide)
      (by cases c <;> decide) hcode s
    exact ⟨hend.place c hplace, fun p hp => (hanswers p hp).settles hend⟩
  · rw [hfollow.desk, hdesk, if_pos (by simp [hnew, hold]), hrefused]

/-! ### Settings that take effect (R181, R183) -/

/-- Changed settings are in force, with the report timer they leave (R22). -/
def withSettings (s : State) (new : Settings) : State :=
  { s with settings := { s.settings with working := new }, reportTimer := s.reportTimerFor new }

theorem reportTimerFor_eq (s : State) (new : Settings) : s.reportTimerFor new =
    if s.cfg.countReportPeriod = 0 ∧ 0 < new.countReportPeriod then some (new.countReportPeriod * 1000)
    else s.reportTimer := by
  unfold reportTimerFor periodTimer
  by_cases h : s.cfg.countReportPeriod = 0 ∧ 0 < new.countReportPeriod
  · rw [if_pos h, if_pos (by simpa using h), if_neg (by omega)]
  · rw [if_neg h, if_neg (by simpa using h)]

/-- The settings that a channel's pending presentation is refused by (R99). -/
theorem withSettings_refusal {s : State} {new : Settings} {c : Chan} {code : VerdictCode}
    (h : new.level.get c = 0 ∧ s.cfg.level.get c ≠ 0 ∧ code = .notServed ∨
      new.level.get c ≠ 0 ∧ (new.level.get c < s.cfg.level.get c ∨ s.cfg.lastCallLevel < new.lastCallLevel) ∧
        (∃ b, new.berthOf.get c = some b ∧ (s.call b).state = .lastCall) ∧
        new.level.get c ≤ new.lastCallLevel ∧ code = .notBoarding) :
    (s.withSettings new).settingRefusal s.cfg c = some code := by
  have hcfg : (s.withSettings new).cfg = new := rfl
  unfold settingRefusal
  rw [hcfg]
  rcases h with ⟨hzero, hold, rfl⟩ | ⟨hnonzero, hchange, ⟨b, hb, hstate⟩, hlevel, rfl⟩
  · rw [if_pos (by simp [hzero, hold])]
  · have hcall : (s.withSettings new).callStateOf c = some .lastCall := by
      have hberth : (s.withSettings new).berthOf c = some b := hb
      have hlast : ((s.withSettings new).call b).state = .lastCall := hstate
      rw [callStateOf, hberth, Option.map_some, hlast]
    have hbelow : (s.withSettings new).belowLastCall c = true := by
      rw [belowLastCall, hcall, hcfg]
      simpa using hlevel
    rw [if_neg (by simp [hnonzero]), if_pos (by simp [hchange, hbelow])]

/-- What changed settings leave; settings that do not change have no effect. -/
structure Applies (s t : State) (new : Settings) : Prop where
  frame : t = { s with
    settings := { s.settings with working := new }
    reportTimer := if s.cfg.countReportPeriod = 0 ∧ 0 < new.countReportPeriod
      then some (new.countReportPeriod * 1000) else s.reportTimer
    notices := t.notices, arbiter := t.arbiter, channels := t.channels, ports := t.ports }
  gates : s.GatesKept t
  same : new = s.cfg → t.notices = s.notices ∧ t.arbiter = s.arbiter ∧ t.channels = s.channels ∧ t.ports = s.ports
  refused : ∀ c code,
    (new.level.get c = 0 ∧ s.cfg.level.get c ≠ 0 ∧ code = .notServed ∨
      new.level.get c ≠ 0 ∧ (new.level.get c < s.cfg.level.get c ∨ s.cfg.lastCallLevel < new.lastCallLevel) ∧
        (∃ b, new.berthOf.get c = some b ∧ (s.call b).state = .lastCall) ∧
        new.level.get c ≤ new.lastCallLevel ∧ code = .notBoarding) →
    t.arbiter.places.get c = none ∧ ∀ p, s.arbiter.places.get c = some p → s.Answers t c p.card code
  desk : new.deskLevel = 0 → s.cfg.deskLevel ≠ 0 → t.arbiter.desk = none

theorem applySettings_applies (s : State) (new : Settings) : s.Applies (s.applySettings new) new := by
  unfold applySettings
  split
  · next hsame =>
    refine ⟨?_, .same rfl rfl, fun _ => ⟨rfl, rfl, rfl, rfl⟩, fun c code h => ?_, fun h hold => absurd (hsame ▸ h) hold⟩
    · rw [hsame, if_neg (by omega)]
      rfl
    · subst hsame
      rcases h with ⟨hzero, hold, -⟩ | ⟨-, hchange, -⟩
      · exact absurd hzero hold
      · omega
  · next hnew =>
    obtain ⟨hgates, hrefused, hdesk⟩ := refuseBySettings_settles (s.withSettings new) s.cfg s
    have hframe : ∃ q a k p, settle s ((s.withSettings new).refuseBySettings s.cfg) [] = { s.withSettings new with
        notices := q, arbiter := a, channels := k, ports := p } := by
      obtain ⟨q, a, k, p, hsettled⟩ := settle_frame s ((s.withSettings new).refuseBySettings s.cfg) []
      obtain ⟨_, _, _, _, hswept⟩ := refuseBySettings_frame (s.withSettings new) s.cfg
      exact ⟨q, a, k, p, by rw [hsettled, hswept]⟩
    dsimp only
    rw [← withSettings]
    generalize settle s ((s.withSettings new).refuseBySettings s.cfg) [] = t at *
    obtain ⟨_, _, _, _, hframe⟩ := hframe
    refine ⟨?_, ⟨hgates.gate, hgates.line⟩, fun h => absurd h hnew, fun c code h => ?_, hdesk⟩
    · rw [hframe, withSettings, reportTimerFor_eq]
    · obtain ⟨hplace, hanswers⟩ := hrefused c code (withSettings_refusal h)
      exact ⟨hplace, fun p hp => (hanswers p hp).of_port rfl⟩

/-! ### The settings messages (R181, R183) -/

theorem bothVacant_iff {s : State} : s.bothVacant = true ↔ ∀ b, (s.call b).state = .vacant := by
  unfold bothVacant
  simp only [Bool.and_eq_true, decide_eq_true_eq]
  exact ⟨fun ⟨h0, h1⟩ b => by cases b <;> assumption, fun h => ⟨h .b0, h .b1⟩⟩

theorem replaceRefusal_busy {s : State} (h : s.settings.storing ≠ none) : s.replaceRefusal = some .busy :=
  if_pos (Option.isSome_iff_ne_none.mpr h)

theorem replaceRefusal_locked {s : State} {b : Berth} (hidle : s.settings.storing = none)
    (h : (s.call b).state ≠ .vacant) : s.replaceRefusal = some .locked := by
  have hvacant : s.bothVacant = false := Bool.eq_false_iff.mpr fun hv => h (bothVacant_iff.mp hv b)
  rw [replaceRefusal, hidle, hvacant]
  rfl

theorem replaceRefusal_none {s : State} (hidle : s.settings.storing = none) (h : ∀ b, (s.call b).state = .vacant) :
    s.replaceRefusal = none := by
  rw [replaceRefusal, hidle, bothVacant_iff.mpr h]
  rfl

theorem actSettingsDefault_refused {s : State} {code : ReplyCode} (h : s.replaceRefusal = some code) :
    actSettingsDefault s = .refuse s code := by
  rw [actSettingsDefault, h]

theorem actSettingsReload_refused {s : State} {code : ReplyCode} (h : s.replaceRefusal = some code) :
    actSettingsReload s = .refuse s code := by
  rw [actSettingsReload, h]

theorem actSettingsSet_busy {s : State} (h : s.settings.storing ≠ none) (n : Nat) (v : SettingValue) :
    actSettingsSet n v s = .refuse s .busy := if_pos (Option.isSome_iff_ne_none.mpr h)

theorem actSettingsSet_badField {s : State} (hidle : s.settings.storing = none) {n : Nat} {v : SettingValue}
    (hput : s.cfg.put n v = none) : actSettingsSet n v s = .refuse s .badField := by
  unfold actSettingsSet
  rw [hidle, hput]
  rfl

theorem actSettingsSet_locked {s : State} (hidle : s.settings.storing = none) {n : Nat} {v : SettingValue}
    {new : Settings} (hput : s.cfg.put n v = some new) (hlocked : s.settingLocked n new = true) :
    actSettingsSet n v s = .refuse s .locked := by
  obtain ⟨before, hbefore⟩ := Option.isSome_iff_exists.mp (Settings.value?_put hput).2
  unfold actSettingsSet
  rw [hidle, hput, hbefore]
  exact if_pos hlocked

theorem actSettingsSet_taken {s : State} (hidle : s.settings.storing = none) {n : Nat} {v before : SettingValue}
    {new : Settings} (hput : s.cfg.put n v = some new) (hbefore : s.cfg.value? n = some before)
    (hfree : s.settingLocked n new = false) :
    actSettingsSet n v s = .ok (s.applySettings new) (.setting n before v) := by
  unfold actSettingsSet
  rw [hidle, hput, hbefore]
  refine (if_neg (Bool.eq_false_iff.mp hfree)).trans ?_
  rw [(Settings.value?_put hput).1]
  rfl

theorem settingLocked_pier {s : State} {b : Berth} (h : (s.call b).state ≠ .vacant) (new : Settings) :
    s.settingLocked 2 new = true := by
  have hvacant : s.bothVacant = false := Bool.eq_false_iff.mpr fun hv => h (bothVacant_iff.mp hv b)
  rw [settingLocked, hvacant]
  rfl

theorem settingLocked_berth {s : State} {b : Berth} (h : (s.call b).state ≠ .vacant) {c : Chan} {new : Settings}
    (hb : s.cfg.berthOf.get c = some b ∨ new.berthOf.get c = some b) : s.settingLocked (3 + c.num) new = true := by
  have hlocked : s.berthVacant (some b) = false := decide_eq_false h
  unfold settingLocked
  rw [berthSettingChan_eq_some.mpr rfl]
  dsimp only
  rcases hb with hb | hb
  · have hb' : s.berthOf c = some b := hb
    rw [hb', hlocked]
    rfl
  · rw [hb, hlocked, Bool.and_false]
    rfl

theorem settingLocked_free {s : State} {n : Nat} {new : Settings} (hpier : n = 2 → ∀ b, (s.call b).state = .vacant)
    (hberth : ∀ c b, n = 3 + c.num → s.cfg.berthOf.get c = some b ∨ new.berthOf.get c = some b →
      (s.call b).state = .vacant) : s.settingLocked n new = false := by
  have vacant : ∀ (c : Chan) (o : Option Berth), n = 3 + c.num → (s.cfg.berthOf.get c = o ∨ new.berthOf.get c = o) →
      s.berthVacant o = true := by
    intro c o hn ho
    cases o with
    | none => rfl
    | some b => exact decide_eq_true (hberth c b hn ho)
  unfold settingLocked
  split
  · next c hc =>
    have hn := berthSettingChan_eq_some.mp hc
    rw [vacant c (s.berthOf c) hn (.inl rfl), vacant c (new.berthOf.get c) hn (.inr rfl)]
    rfl
  · by_cases hn : n = 2
    · rw [bothVacant_iff.mpr (hpier hn), Bool.not_true, Bool.and_false]
    · rw [decide_eq_false hn, Bool.false_and]

end Sys2Proof.Machine.State

open Sys2Proof Sys2Proof.Machine Sys2Proof.Machine.State

/-- Settles O50: the three messages put new settings in force by one change, on the state with the fault they leave. -/
theorem settingsAreSet : Obligations.SettingsAreSet := by
  intro s hrun
  refine ⟨fun i k body new fault hidle h => ?_, fun hbusy n v => ⟨?_, ?_, ?_⟩, fun hidle n v hput => ?_,
    fun b hidle hb => ⟨fun v new hput => ?_, fun c v new hput hnew => ?_, ?_, ?_⟩⟩
  · have hact : ∃ act : State → Act, exec i s = .next (s.request k .part .fits act) ∧
        act s.beginRequest = .ok ((s.beginRequest.setFault fault).applySettings new) body := by
      rcases h with ⟨n, v, before, rfl, rfl, hput, hbefore, rfl, rfl, hpier, hberth⟩ | ⟨hvacant, h⟩
      · exact ⟨_, rfl, actSettingsSet_taken (s := s.beginRequest) hidle hput hbefore (settingLocked_free hpier hberth)⟩
      · have hnone : s.beginRequest.replaceRefusal = none := replaceRefusal_none (s := s.beginRequest) hidle hvacant
        rcases h with ⟨rfl, rfl, rfl, rfl, rfl⟩ | ⟨rfl, rfl, rfl, hload, rfl⟩ | ⟨rfl, rfl, rfl, hload, rfl, rfl⟩
        · refine ⟨_, rfl, ?_⟩
          unfold actSettingsDefault
          rw [hnone]
          rfl
        · have hload' : loadImage s.beginRequest.settings.image = some new := hload
          refine ⟨_, rfl, ?_⟩
          unfold actSettingsReload
          rw [hnone]
          dsimp only
          rw [hload']
        · have hload' : loadImage s.beginRequest.settings.image = none := hload
          refine ⟨_, rfl, ?_⟩
          unfold actSettingsReload
          rw [hnone]
          dsimp only
          rw [hload']
    obtain ⟨act, hexec, hact⟩ := hact
    obtain ⟨hframe, hgates, hsame, hrefused, hdesk⟩ := applySettings_applies (s.beginRequest.setFault fault) new
    generalize (s.beginRequest.setFault fault).applySettings new = t at *
    have hbus : t.bus = s.beginRequest.bus := by
      rw [hframe]
      rfl
    refine ⟨_, hexec.trans (congrArg Host.Outcome.next (request_acts hrun hact hbus)), ?_, ⟨hgates.gate, hgates.line⟩,
      hsame, fun c code h => ?_, hdesk⟩
    · rw [hframe]
      rfl
    · obtain ⟨hplace, hanswers⟩ := hrefused c code h
      exact ⟨hplace, fun p hp => ⟨(hanswers p hp).taken, (hanswers p hp).verdict⟩⟩
  · exact congrArg Host.Outcome.next (request_refused hrun (actSettingsSet_busy (s := s.beginRequest) hbusy n v))
  · exact congrArg Host.Outcome.next (request_refused hrun (actSettingsDefault_refused (s := s.beginRequest)
      (replaceRefusal_busy (s := s.beginRequest) hbusy)))
  · exact congrArg Host.Outcome.next (request_refused hrun (actSettingsReload_refused (s := s.beginRequest)
      (replaceRefusal_busy (s := s.beginRequest) hbusy)))
  · exact congrArg Host.Outcome.next (request_refused hrun (actSettingsSet_badField (s := s.beginRequest) hidle hput))
  · exact congrArg Host.Outcome.next (request_refused hrun (actSettingsSet_locked (s := s.beginRequest) hidle hput
      (settingLocked_pier (s := s.beginRequest) hb new)))
  · exact congrArg Host.Outcome.next (request_refused hrun (actSettingsSet_locked (s := s.beginRequest) hidle hput
      (settingLocked_berth (s := s.beginRequest) hb hnew)))
  · exact congrArg Host.Outcome.next (request_refused hrun (actSettingsDefault_refused (s := s.beginRequest)
      (replaceRefusal_locked (s := s.beginRequest) hidle hb)))
  · exact congrArg Host.Outcome.next (request_refused hrun (actSettingsReload_refused (s := s.beginRequest)
      (replaceRefusal_locked (s := s.beginRequest) hidle hb)))
end

section
/-! What the stages decide for a card, as a value; what stages 9 and 10 make of an accepted case; and what a verdict
with a write-back leaves at its port. -/

namespace Sys2Proof.Machine

namespace State

/-! ### Stages 1 to 8 (R105 to R110) -/

theorem findProduct_none {table : ProductTable} {n : Nat} (h : ∀ p ∈ table.entries, p.number ≠ n) :
    findProduct table n = none := by
  simpa [findProduct] using h

theorem lineSetPasses_false {ls : LineSet} {line : Nat} (hall : ls = .all → ¬(1 ≤ line ∧ line ≤ 63))
    (hlines : ∀ l, ls = .lines l → line ∉ l) : lineSetPasses ls line = false := by
  cases ls with
  | all => simpa [lineSetPasses, within] using hall rfl
  | lines l => simpa [lineSetPasses] using hlines l rfl

/-- A token's entry that is not expired at a clock. -/
theorem stateAt_current {a : Allotment} {clock : Option ClockTime}
    (h : ∀ e now, a.expiry = some e → clock = some now → e.le now = false) : a.stateAt clock ≠ .expired := by
  unfold Allotment.stateAt
  split
  · next e now he =>
    rw [h e now he rfl, if_neg Bool.false_ne_true]
    split <;> exact nofun
  · split <;> exact nofun

variable {s : State} {card : Card} {snap : Snapshot} {line : Nat} {m : Bool}

theorem decideCard_of_reachesAllotment {a : Allotment} (h : s.ReachesAllotment card snap line a) :
    s.decideCard card snap line =
      (if a.remaining = 0 then .refer (.allotmentSpent a.total a.passed) else .accept (.ofAllotment a), false) := by
  obtain ⟨⟨table, tariff, hpasses⟩, ⟨entry, htoken, rfl⟩, hcurrent, hline⟩ := h
  have hhere : ¬((snap.applied entry).line ≠ 0 ∧ (snap.applied entry).line ≠ line) := by
    rcases hline with h | h <;> simp [h]
  rw [decideCard_of_passes s card snap line table tariff hpasses, htoken]
  simp [decideAllotment, stateAt_current hcurrent, hhere]

/-- What the certificate's relation gives is what the stages decide. -/
theorem decideCard_of_decides {d : Decision} (h : s.Decides card snap line d m) :
    s.decideCard card snap line = (d, m) := by
  cases h with
  | badData hdata => simp [decideCard, hdata]
  | blocked hdata hblocked => simp [decideCard, hdata, hblocked]
  | notReady hdata hopen hnone =>
    unfold decideCard
    simp only [hdata, hopen]
    rcases hnone with hnone | hnone <;> rw [hnone] <;> cases snap.product <;> rfl
  | denied table tariff e hdata hopen hproduct htariff hdeny =>
    unfold decideCard
    simp only [hdata, hopen, hproduct, htariff, hdeny]
    cases e.action <;> rfl
  | tokenExpired table tariff a e now hpasses htoken hexpiry hclock hpast =>
    rw [decideCard_of_passes s card snap line table tariff hpasses, htoken]
    have hstate : (snap.applied a).stateAt s.clock = .expired := by simp [Allotment.stateAt, hexpiry, hclock, hpast]
    simp [decideAllotment, hstate]
  | tokenWrongLine table tariff a hpasses htoken hcurrent hany hother =>
    rw [decideCard_of_passes s card snap line table tariff hpasses, htoken]
    simp [decideAllotment, stateAt_current hcurrent, hany, hother]
  | tokenSpent a hreaches hspent => rw [decideCard_of_reachesAllotment hreaches, if_pos hspent]
  | token a hreaches hleft =>
    rw [decideCard_of_reachesAllotment hreaches, if_neg (Nat.ne_of_gt hleft)]
    rfl
  | passback table tariff e hpasses hno hnewest houtcome hage =>
    have hfinding : s.journeyFinding card line = .passback := by
      unfold journeyFinding
      rw [(newestIs_iff _ _ _).mp hnewest]
      rcases houtcome with houtcome | houtcome <;> simp [houtcome, hage]
    rw [decideCard_of_passes s card snap line table tariff hpasses, hno]
    dsimp only
    rw [hfinding]
  | recovery table tariff e l hpasses hno hnewest houtcome hage hlast hpier htag =>
    have hfinding : s.journeyFinding card line = .reuse := by
      unfold journeyFinding
      rw [(newestIs_iff _ _ _).mp hnewest]
      simp [houtcome, hage, hlast, hpier, htag]
    rw [decideCard_of_passes s card snap line table tariff hpasses, hno]
    dsimp only
    rw [hfinding]
  | rerelease table tariff e hpasses hno hnewest houtcome hage hline =>
    have hfinding : s.journeyFinding card line = .reuse := by
      unfold journeyFinding
      rw [(newestIs_iff _ _ _).mp hnewest]
      simp [houtcome, hage, hline]
    rw [decideCard_of_passes s card snap line table tariff hpasses, hno]
    dsimp only
    rw [hfinding]
  | unknownProduct m table tariff hreaches hnone =>
    rw [decideCard_of_reachesProduct s card snap line _ table tariff hreaches, decideByProduct, findProduct_none hnone]
  | wrongLine m table tariff p hreaches hfound hall hlines =>
    rw [decideCard_of_reachesProduct s card snap line _ table tariff hreaches, decideByProduct]
    have hfound' : findProduct table card.product = some p := hfound
    rw [hfound']
    simp [lineSetPasses_false hall hlines]
  | partMissing m tariff p hreaches hmissing =>
    rw [decideCard_of_reachesKind s card snap line _ tariff p hreaches]
    unfold decideProduct
    rcases hmissing with ⟨hkind, hpart⟩ | ⟨hkind, hpart⟩ | ⟨hkind, hpart⟩ <;> rw [hkind] <;> dsimp only <;> rw [hpart]
  | passExpired m tariff p day now hreaches hkind hend hclock hpast =>
    rw [decideCard_of_reachesKind s card snap line _ tariff p hreaches]
    simp [decideProduct, hkind, hend, hclock, hpast]
  | pass m tariff p day hreaches hkind hend hcurrent =>
    rw [decideCard_of_reachesKind s card snap line _ tariff p hreaches]
    cases hclock : snap.clock with
    | none => simp [decideProduct, hkind, hend]
    | some now => simp [decideProduct, hkind, hend, Nat.not_lt.mpr (hcurrent now hclock)]
  | noRides m tariff p hreaches hkind hrides =>
    rw [decideCard_of_reachesKind s card snap line _ tariff p hreaches]
    simp [decideProduct, hkind, hrides]
  | ride m tariff p n hreaches hkind hrides =>
    rw [decideCard_of_reachesKind s card snap line _ tariff p hreaches]
    simp [decideProduct, hkind, hrides]
  | lowBalance m tariff p v hreaches hkind hvalue hfare =>
    rw [decideCard_of_reachesKind s card snap line _ tariff p hreaches]
    simp [decideProduct, hkind, hvalue, hfare]
  | charged m tariff p v fare after hreaches hkind hvalue hfare =>
    rw [decideCard_of_reachesKind s card snap line _ tariff p hreaches]
    simp [decideProduct, hkind, hvalue, hfare]
  | account m tariff p hreaches hkind =>
    rw [decideCard_of_reachesKind s card snap line _ tariff p hreaches]
    simp [decideProduct, hkind]
  | staff m tariff p hreaches hkind =>
    rw [decideCard_of_reachesKind s card snap line _ tariff p hreaches]
    simp [decideProduct, hkind]

end State

end Sys2Proof.Machine
end

section
/-! Stages 9 and 10 for a case that may board, and the verdict with a write-back that a grant sends. -/

namespace Sys2Proof.Machine

/-- The allotment table after seats of a token are granted (R160). -/
def allotGranted (l : List Allotment) (allot : Option CardId) (n : Nat) : List Allotment :=
  match allot with
  | none => l
  | some token => l.map fun a => if a.token = token then
      { a with remaining := a.remaining - n, held := a.held + n } else a

namespace State

variable {s : State} {c : Chan} {b : Berth} {card : Card} {clock : Option ClockTime} {k : Terms} {n : Nat}

/-! ### Stage 9 (R111) -/

theorem completionRefusal_of_refuses {code : VerdictCode} (h : s.RefusesAtCompletion c code) :
    s.completionRefusal c = some code := by
  unfold completionRefusal
  cases h with
  | egress hstate => exact if_pos hstate
  | suspended hstate => rw [if_neg (by rw [hstate]; exact nofun), if_pos hstate]
  | service hheld hramp hservice => rw [if_neg hheld, if_neg hramp, if_pos hservice]
  | call hheld hramp hservice hcall =>
    rw [if_neg hheld, if_neg hramp, if_neg (by rw [hservice]; exact nofun), callStateOf]
    cases hb : s.berthOf c with
    | none => rfl
    | some b => exact if_neg (Bool.eq_false_iff.mp (hcall b hb))

theorem ReadyFor.passes (h : s.ReadyFor c b) : s.completionRefusal c = none := by
  unfold completionRefusal
  rw [if_neg h.held, if_neg h.ramp, if_neg (by rw [h.service]; exact nofun), callStateOf, h.berth]
  exact if_pos h.boarding

theorem ReadyFor.lineOf (h : s.ReadyFor c b) : s.lineOf c = (s.call b).line := by
  unfold State.lineOf
  rw [h.berth]
  exact if_pos (isOpen_of_isBoarding h.boarding)

theorem acceptCase_refused {code : VerdictCode} (h : s.RefusesAtCompletion c code) :
    s.acceptCase c card clock k = s.refuseCase c card code := by
  rw [acceptCase, completionRefusal_of_refuses h]

theorem ReadyFor.acceptCase_eq (h : s.ReadyFor c b) : s.acceptCase c card clock k = s.stageTen c card clock k := by
  rw [acceptCase, h.passes]

/-! ### Stage 10 (R112 to R115) -/

/-- The state with a write tag drawn for a channel and noted with its charge (R115). -/
def noted (s : State) (c : Chan) (charge : Charge) : State :=
  { s with engine := { s.engine with
    nextTag := if s.engine.nextTag = 65535 then 1 else s.engine.nextTag + 1
    notes := s.engine.notes.set c (some ⟨s.engine.nextTag, charge⟩) } }

/-- The state with a tag drawn, the provisional claim of granted terms entered, and its seats taken from their
allotment (R34, R115, R160). -/
def granting (s : State) (c : Chan) (b : Berth) (card : Card) (k : Terms) (n : Nat) : State :=
  { s.noted c k.charge with
    claims := s.claims.set c { s.claimsOf c with
      provisional := (s.claimsOf c).provisional ++
        [⟨b, k.kind, n, 0, if k.kind = .staff then none else some card.id, k.fare, k.allot,
          some s.engine.nextTag, s.uptimeSecs, 0⟩] }
    tables := { s.tables with allot := allotGranted s.tables.allot k.allot n } }

/-- The verdict of granted terms that carry a write-back (Table 6-6). -/
def writeVerdict (s : State) (b : Berth) (card : Card) (clock : Option ClockTime) (k : Terms) : Verdict :=
  ⟨k.code, k.fare, (match k.value with
    | some v => some v.balance
    | none => card.value.map ValuePart.balance),
    some ⟨s.engine.nextTag, k.value, k.rides,
      some ⟨(clock.getD ⟨0, 0⟩).day, (clock.getD ⟨0, 0⟩).secs, (s.call b).line, s.cfg.pierNumber,
        if k.value = none then 0 else k.fare, s.engine.nextTag⟩, false⟩⟩

theorem seatsGranted_of_grants {r : SeatRequest} (h : s.Grants b r.seats r.partialOk n) :
    s.seatsGranted b r = some n := by
  unfold seatsGranted
  rcases h with ⟨hroom, rfl⟩ | ⟨hpartial, hsome, hshort, rfl⟩
  · exact if_pos hroom
  · rw [if_neg (Nat.not_le.mpr hshort), hpartial]
    exact if_pos (by simpa using hsome)

theorem seatsGranted_none {r : SeatRequest} (hforced : r.forced = false) (h : ∀ n, ¬s.Grants b r.seats r.partialOk n) :
    s.seatsGranted b r = none := by
  cases hn : s.seatsGranted b r with
  | none => rfl
  | some n =>
    refine absurd ?_ (h n)
    unfold seatsGranted at hn
    split at hn
    · next hroom => exact .inl ⟨hroom, (Option.some.inj hn).symm⟩
    · next hshort =>
      split at hn
      · next hpartial =>
        obtain ⟨hpartial, hsome⟩ := (Bool.and_eq_true _ _).mp hpartial
        exact .inr ⟨hpartial, of_decide_eq_true hsome, Nat.not_le.mp hshort, (Option.some.inj hn).symm⟩
      · rw [hforced] at hn
        cases hn

theorem Grants.le {seats : Nat} {partialOk : Bool} (h : s.Grants b seats partialOk n) : n ≤ s.headroom b := by
  rcases h with ⟨hroom, rfl⟩ | ⟨-, -, -, rfl⟩
  · exact hroom
  · exact Nat.le_refl _

theorem enterClaim_provisional {x : Claim} {tag : Nat} (h : x.tag = some tag) : s.enterClaim c x =
    { s with
      claims := s.claims.set c { s.claimsOf c with provisional := (s.claimsOf c).provisional ++ [x] }
      tables := { s.tables with allot := allotGranted s.tables.allot x.allot x.granted } } := by
  unfold enterClaim modClaimAllot allotGranted
  rw [h]
  cases x.allot <;> rfl

theorem requestSeats_full {r : SeatRequest} (hb : s.berthOf r.channel = some b)
    (hboarding : (s.call b).state.isBoarding = true) (hforced : r.forced = false)
    (h : 3 ≤ (s.claimsOf r.channel).count ∨ ∀ n, ¬s.Grants b r.seats r.partialOk n) :
    s.requestSeats r = (s, .channelFull) ∨ s.requestSeats r = (s, .noHeadroom) := by
  unfold requestSeats
  rw [hb]
  dsimp only
  rw [hboarding]
  by_cases hclaims : 3 ≤ (s.claimsOf r.channel).count
  · exact .inl (if_pos hclaims)
  · rw [seatsGranted_none hforced (h.resolve_left hclaims)]
    exact .inr (if_neg hclaims)

/-- With 3 claims, or without the room asked for, the case is answered FULL, with its tag drawn (R112, R115). -/
theorem acceptCase_full (hready : s.ReadyFor c b) (hwrites : k.writes = true)
    (h : 3 ≤ (s.claimsOf c).count ∨ ∀ n, ¬s.Grants b k.seats k.partialOk n) :
    s.acceptCase c card clock k = (s.noted c k.charge).refuseCase c card .full := by
  have hrequest := requestSeats_full (s := s.drawTag.setNote c s.engine.nextTag k.charge)
    (r := seatRequest c card k s.engine.nextTag) hready.berth hready.boarding rfl h
  rw [hready.acceptCase_eq, stageTen, hwrites]
  dsimp only
  rw [if_pos rfl]
  rcases hrequest with hrequest | hrequest <;> rw [hrequest] <;> rfl

theorem acceptCase_granted (hready : s.ReadyFor c b) (hcount : (s.claimsOf c).count < 3)
    (hgrants : s.Grants b k.seats k.partialOk n) (hwrites : k.writes = true) (hreuse : k.reuse = false) :
    s.acceptCase c card clock k = ⟨(s.granting c b card k n).deliver c (s.writeVerdict b card clock k), k.code,
      (s.granting c b card k n).spentNotice c k.allot⟩ := by
  have hseats : (s.drawTag.setNote c s.engine.nextTag k.charge).seatsGranted b
      (seatRequest c card k s.engine.nextTag) = some n := seatsGranted_of_grants (s := s.drawTag.setNote c _ _) hgrants
  have hrequest := requestSeats_granted (s := s.drawTag.setNote c s.engine.nextTag k.charge)
    (r := seatRequest c card k s.engine.nextTag) hready.berth hready.boarding hcount hseats
  have htag : (seatRequest c card k s.engine.nextTag).tag = some s.engine.nextTag := if_pos hwrites
  have hentered : (s.drawTag.setNote c s.engine.nextTag k.charge).enterClaim c
      ((s.drawTag.setNote c s.engine.nextTag k.charge).newClaim b (seatRequest c card k s.engine.nextTag) n) =
        s.granting c b card k n := by
    rw [enterClaim_provisional htag, granting, noted, ← htag]
    rfl
  have hverdict : (s.granting c b card k n).grantedVerdict c card clock k s.engine.nextTag =
      s.writeVerdict b card clock k := by
    have hline : (s.granting c b card k n).lineOf c = (s.call b).line := hready.lineOf
    unfold grantedVerdict writeVerdict lastBoarding
    rw [hline, if_pos hwrites]
    cases k.value <;> rfl
  rw [hready.acceptCase_eq, stageTen]
  dsimp only
  rw [if_pos hwrites, hrequest]
  dsimp only
  rw [hreuse]
  show Decided.mk (State.deliver (enterClaim _ c _) c (grantedVerdict (enterClaim _ c _) ..)) _
    (spentNotice (enterClaim _ c _) ..) = _
  rw [hentered, hverdict]

end State

end Sys2Proof.Machine
end

section
/-! What a verdict with a write-back leaves at its port, what a verdict changes at its channel alone, and the notices of
a grant. -/

namespace Sys2Proof.Machine.State

variable {s t u : State} {c : Chan} {b : Berth} {card : Card} {clock : Option ClockTime} {k : Terms} {n : Nat}

/-! ### Verdicts at a port (R82, R84, R85) -/

/-- A record that is sent or waits touches its channel's refusals tally, and of its port what is sent there. -/
theorem sendRecord_touches (s : State) (c : Chan) (r : ReaderRecord) : ∃ tally g w, s.sendRecord c r = { s with
    channels := s.channels.set c { s.chan c with tallies := { (s.chan c).tallies with refusals := tally } }
    ports := s.ports.set c { s.port c with sending := g, waiting := w } } := by
  have kept : ∀ p, s.setPort c p = { s with
      channels := s.channels.set c { s.chan c with tallies := { (s.chan c).tallies with
        refusals := (s.chan c).tallies.refusals } }
      ports := s.ports.set c p } := fun p => by cases c <;> rfl
  unfold sendRecord
  split
  · cases r with
    | verdict v =>
      unfold startRecord
      dsimp only
      split
      · exact ⟨_, _, _, rfl⟩
      · exact ⟨_, _, _, kept _⟩
    | _ => exact ⟨_, _, _, kept _⟩
  · exact ⟨_, _, _, kept _⟩

/-- A verdict for the presentation outstanding at a port. -/
theorem deliver_taken (h : (s.port c).outstanding ≠ none) (v : Verdict) :
    ∃ tally g w, s.deliver c v = { s with
      channels := s.channels.set c { s.chan c with tallies := { (s.chan c).tallies with refusals := tally } }
      ports := s.ports.set c { s.port c with
        outstanding := none
        awaited := match v.writeBack with
          | none => (s.port c).awaited
          | some w => some ⟨w.tag, Config.writeMs⟩
        sending := g
        waiting := w } } := by
  unfold deliver
  split
  · next hnone => exact absurd hnone h
  · obtain ⟨tally, g, w, hsent⟩ := sendRecord_touches (s.setPort c { s.port c with
      outstanding := none
      awaited := match v.writeBack with
        | none => (s.port c).awaited
        | some w => some ⟨w.tag, Config.writeMs⟩ }) c (.verdict v)
    refine ⟨tally, g, w, hsent.trans ?_⟩
    cases c <;> rfl

theorem deliver_outstanding (s : State) (c : Chan) (v : Verdict) : ((s.deliver c v).port c).outstanding = none := by
  by_cases h : (s.port c).outstanding = none
  · unfold deliver
    rw [h]
    exact h
  · obtain ⟨_, _, _, hsent⟩ := deliver_taken h v
    rw [hsent]
    exact congrArg Port.outstanding (port_setPort s c c _ |>.trans (if_pos rfl))

theorem deliver_awaited {v : Verdict} {w : WriteBack} (h : (s.port c).outstanding ≠ none) (hv : v.writeBack = some w) :
    ((s.deliver c v).port c).awaited = some ⟨w.tag, Config.writeMs⟩ := by
  obtain ⟨_, _, _, hsent⟩ := deliver_taken h v
  rw [hsent, hv]
  exact congrArg Port.awaited (port_setPort s c c _ |>.trans (if_pos rfl))

theorem deliver_sending {v : Verdict} (h : (s.port c).outstanding ≠ none) (hidle : (s.port c).sending = none) :
    ((s.deliver c v).port c).sending = some (.verdict v) := by
  unfold deliver
  split
  · next hnone => exact absurd hnone h
  · refine congrArg Port.sending (sendRecord_port_idle ?_ _)
    rw [port_setPort, if_pos rfl]
    exact hidle

/-- A verdict that writes back the last-boarding part alone, under the tag and the clock of the state found (R154). -/
theorem deliver_answersWithWrite (hports : u.ports = s.ports) (hvalue : k.value = none) (hrides : k.rides = none) :
    s.AnswersWithWrite (u.deliver c (s.writeVerdict b card s.clock k)) c b card k.code k.fare := by
  have hport : u.port c = s.port c := by rw [State.port, State.port, hports]
  refine ⟨deliver_outstanding u c _, fun h => ?_, fun h hidle => ?_⟩
  · exact deliver_awaited (v := s.writeVerdict b card s.clock k) (hport ▸ h) rfl
  · rw [deliver_sending (hport ▸ h) (hport ▸ hidle), writeVerdict, hvalue, hrides]
    rfl

theorem AnswersWithWrite.settles {code : VerdictCode} {fare : Nat} (h : s.AnswersWithWrite u c b card code fare)
    (hf : u.PortsFollow t) : s.AnswersWithWrite t c b card code fare := by
  have hp := hf.port c
  refine ⟨?_, fun hheld => hp.awaited.trans (h.awaited hheld), fun hheld hidle => ?_⟩
  · rcases hp.outstanding with e | e
    · rw [e, h.taken]
    · exact e
  · have hsent := h.verdict hheld hidle
    rw [hp.sending (by rw [hsent]; exact nofun), hsent]

/-- A verdict touches its channel's refusals tally, and of its port what is held there and sent. -/
theorem deliver_withLine (s : State) (c : Chan) (v : Verdict) : s.deliver c v = s.withLine (s.deliver c v) c := by
  by_cases h : (s.port c).outstanding = none
  · have hkept : s.deliver c v = s := by
      unfold deliver
      rw [h]
    rw [hkept]
    cases c <;> rfl
  · obtain ⟨_, _, _, hsent⟩ := deliver_taken h v
    rw [hsent]
    cases c <;> rfl

@[simp] theorem deliver_notices (s : State) (c : Chan) (v : Verdict) : (s.deliver c v).notices = s.notices := by
  obtain ⟨_, _, h⟩ := deliver_frame s c v
  rw [h]

@[simp] theorem deliver_calls (s : State) (c : Chan) (v : Verdict) : (s.deliver c v).calls = s.calls := by
  obtain ⟨_, _, h⟩ := deliver_frame s c v
  rw [h]

@[simp] theorem deliver_claims (s : State) (c : Chan) (v : Verdict) : (s.deliver c v).claims = s.claims := by
  obtain ⟨_, _, h⟩ := deliver_frame s c v
  rw [h]

/-! ### The notices of a grant (R21, R160) -/

theorem granting_held (s : State) (c : Chan) (b d : Berth) (card : Card) (k : Terms) (n : Nat) :
    (s.granting c b card k n).held d = s.held d + if d = b then n else 0 := by
  have hheld : (s.granting c b card k n).held d + (s.claimsOf c).heldOn d = _ := held_setClaims s c _ d
  rw [ChannelClaims.heldOn, ChannelClaims.heldOn, heldIn_append, heldIn_singleton] at hheld
  have hn : Claim.unpassed ⟨b, k.kind, n, 0, if k.kind = .staff then none else some card.id, k.fare, k.allot,
      some s.engine.nextTag, s.uptimeSecs, 0⟩ = n := rfl
  rw [hn] at hheld
  dsimp only at hheld
  omega

theorem granting_headroom (s : State) (c : Chan) (b d : Berth) (card : Card) (k : Terms) (n : Nat) :
    (s.granting c b card k n).headroom d = s.headroom d - if d = b then n else 0 := by
  rw [headroom, granting_held, Nat.sub_add_eq]
  rfl

/-- The HEADROOM notice of a grant, where it took the last of the headroom (R21). -/
def headroomTaken (s : State) (b : Berth) (n : Nat) : List Notice :=
  if 0 < n ∧ s.headroom b = n then [.headroom b (s.call b).vessel false 0] else []

/-- The verdict of a grant stands at the event's end with the HEADROOM notice of the grant's call, and no other. -/
theorem granting_crossings {before : State} (hbefore : ∀ d, before.headroom d = s.headroom d)
    (hcalls : before.calls = s.calls) (hopen : (s.call b).state.isOpen = true) (hn : n ≤ s.headroom b) (v : Verdict) :
    crossing before ((s.granting c b card k n).deliver c v) .b0 ++
      crossing before ((s.granting c b card k n).deliver c v) .b1 = s.headroomTaken b n := by
  have hk : ((s.granting c b card k n).deliver c v).calls = s.calls := deliver_calls ..
  have hc : ((s.granting c b card k n).deliver c v).claims = (s.granting c b card k n).claims := deliver_claims ..
  generalize (s.granting c b card k n).deliver c v = u at *
  have hroom : ∀ d, u.headroom d = s.headroom d - if d = b then n else 0 := fun d =>
    (headroom_congr (s := u) (t := s.granting c b card k n) hk hc d).trans (granting_headroom s c b d card k n)
  have hother : ∀ d, d ≠ b → u.headroom d = before.headroom d := fun d hd => by
    rw [hroom, if_neg hd, hbefore, Nat.sub_zero]
  have hcall : ∀ d, u.call d = s.call d := call_congr hk
  have hcall' : ∀ d, before.call d = s.call d := call_congr hcalls
  rw [crossings_one hother, crossing_eq (by rwa [hcall']) (by rwa [hcall]) (by rw [hcall, hcall'])]
  unfold headroomNotice headroomTaken
  rw [hroom, if_pos rfl, hbefore, hcall']
  by_cases h : 0 < n ∧ s.headroom b = n
  · have hnone : s.headroom b - n = 0 := by omega
    rw [if_pos h, hnone, if_pos (by omega)]
    rfl
  · rw [if_neg h, if_neg (by omega)]

/-- The ALLOTMENT_SPENT notice of a grant, where no seat of its allotment remains (R160). -/
def allotmentTaken (s : State) (c : Chan) (allot : Option CardId) (n : Nat) : List Notice :=
  match allot.bind s.allotOf with
  | none => []
  | some a => if a.remaining ≤ n then [.allotmentSpent a.token a.line a.total (a.held + n) a.passed c] else []

theorem find?_token_map {f : Allotment → Allotment} (hf : ∀ a, (f a).token = a.token) (id : CardId)
    (l : List Allotment) : (l.map fun a => if a.token = id then f a else a).find? (fun a => a.token = id) =
      (l.find? fun a => a.token = id).map f := by
  induction l with
  | nil => rfl
  | cons a l ih =>
    rw [List.map_cons]
    by_cases h : a.token = id
    · rw [if_pos h, List.find?_cons_of_pos (by simp [hf, h]), List.find?_cons_of_pos (by simp [h])]
      rfl
    · rw [if_neg h, List.find?_cons_of_neg (by simp [h]), List.find?_cons_of_neg (by simp [h]), ih]

theorem granting_spentNotice (s : State) (c : Chan) (b : Berth) (card : Card) (k : Terms) (n : Nat) :
    (s.granting c b card k n).spentNotice c k.allot = s.allotmentTaken c k.allot n := by
  unfold spentNotice allotmentTaken
  cases hallot : k.allot with
  | none => rfl
  | some token =>
    have hentry : (s.granting c b card k n).allotOf token =
        (s.allotOf token).map fun a => { a with remaining := a.remaining - n, held := a.held + n } := by
      unfold granting allotGranted allotOf
      rw [hallot]
      exact find?_token_map (f := fun a => { a with remaining := a.remaining - n, held := a.held + n })
        (fun _ => rfl) token s.tables.allot
    dsimp only
    rw [hentry, Option.bind_some]
    cases s.allotOf token with
    | none => rfl
    | some a => simp only [Option.map_some, Nat.sub_eq_zero_iff_le]

end Sys2Proof.Machine.State
end

section
/-! The completion of an accepted card: the terms it is accepted on, the claim it takes, and the verdict it sends. -/

namespace Sys2Proof.Machine.State

variable {s t u : State} {c : Chan} {b : Berth} {card : Card} {clock : Option ClockTime} {k : Terms} {m : Bool}
  {n : Nat}

/-! ### What stage 9 and the journey list depend on -/

theorem ReadyFor.of_same (h : s.ReadyFor c b) (hchannels : u.channels = s.channels) (hsettings : u.settings = s.settings)
    (hcalls : u.calls = s.calls) : u.ReadyFor c b := by
  have hchan : u.chan c = s.chan c := by rw [chan, chan, hchannels]
  exact ⟨hchan ▸ h.held, hchan ▸ h.ramp, hchan ▸ h.service, by rw [berthOf, hsettings]; exact h.berth,
    by rw [call_congr hcalls]; exact h.boarding⟩

/-- The state with the newest journey entry of a card RESOLVED, where its recovery test was not met (R108). -/
def resolvedIf (s : State) (id : CardId) (m : Bool) : State := if m then s.resolveNewest id else s

theorem resolvedIf_frame (s : State) (id : CardId) (m : Bool) : ∃ j, s.resolvedIf id m = s.setJourney j := by
  cases m <;> exact ⟨_, rfl⟩

theorem resolvedIf_append {id : CardId} {xs ys : List JourneyEntry} {e : JourneyEntry}
    (h : s.engine.journey = xs ++ e :: ys) (he : e.card = id) (hys : ∀ y ∈ ys, y.card ≠ id) :
    (s.resolvedIf id m).engine.journey = xs ++ { e with outcome := if m then .resolved else e.outcome } :: ys := by
  cases m with
  | false => exact h
  | true =>
    show modifyLast _ _ s.engine.journey = _
    rw [h]
    exact modifyLast_append _ _ xs ys e (decide_eq_true he) fun y hy => decide_eq_false (hys y hy)

theorem JourneyResolved.of_resolvedIf {id : CardId} (h : t.engine.journey = (s.resolvedIf id m).engine.journey) :
    s.JourneyResolved t id m where
  kept hm := by rw [h, hm]; rfl
  resolved hm xs e ys hsplit he hys := by
    rw [h, resolvedIf_append hsplit he hys, hm]
    rfl

/-! ### The terms of an accept -/

theorem Decides.terms {snap : Snapshot} {line : Nat} (h : s.Decides card snap line (.accept k) m) :
    k.writes = true ∧ k.reuse = false ∨ k = .reused := by
  generalize hd : Decision.accept k = d at h
  cases h with
  | denied _ _ e => split at hd <;> cases hd
  | recovery => exact .inr (Decision.accept.inj hd)
  | rerelease => exact .inr (Decision.accept.inj hd)
  | _ => cases hd <;> exact .inl ⟨rfl, rfl⟩

/-- An accepted card's terms carry a write-back, or are those of a recovery or a re-release. -/
theorem AcceptsCard.terms {snap : Snapshot} {line : Nat} (h : s.AcceptsCard card snap line k clock m) :
    k.writes = true ∧ k.reuse = false ∨ k = .reused := by
  cases h with
  | stages _ _ h => exact h.terms
  | fallback => exact .inl ⟨rfl, rfl⟩

theorem FallbackIs.fallbackOf_eq {cause : Cause} {f : Fallback} (h : s.FallbackIs f cause) : s.fallbackOf cause = f := by
  cases cause <;> exact h

/-- A completion that accepts its card takes the terms to stage 9. -/
theorem completeStages_accepts {w : Work} (h : s.AcceptsCard w.card w.snap (s.lineOf c) k clock m) :
    s.freeEngine.completeStages c w =
      (((s.freeEngine.resolvedIf w.card.id m).acceptCase c w.card clock k).state,
        ((s.freeEngine.resolvedIf w.card.id m).acceptCase c w.card clock k).after) := by
  have hsame : s.freeEngine.decideCard w.card w.snap (s.freeEngine.lineOf c) =
      s.decideCard w.card w.snap (s.lineOf c) := rfl
  unfold completeStages
  rw [hsame]
  cases h with
  | stages _ _ hdecides =>
    rw [decideCard_of_decides hdecides]
    rfl
  | fallback cause _ block kind seats partialOk code honce haccept hblock hasked =>
    rw [decideCard_of_decides honce.refers]
    obtain ⟨j, hj⟩ := resolvedIf_frame s.freeEngine w.card.id m
    show (s.freeEngine.resolvedIf w.card.id m).referCase c w.card cause
      ((s.freeEngine.resolvedIf w.card.id m).blockOf w.card w.snap) = _
    rw [hj]
    have hblock' : (s.freeEngine.setJourney j).blockOf w.card w.snap = block := hblock.blockOf_eq
    have haccept' : (s.freeEngine.setJourney j).fallbackOf cause = .accept := haccept.fallbackOf_eq
    rw [hblock', referCase_atOnce (s.freeEngine.setJourney j) c w.card cause block honce.unheard, fallback, haccept',
      fallbackTerms_of_askedBy hasked]
    rfl

/-! ### A recovery or a re-release (R108, R112) -/

/-- The live queue of a channel with a free claim without a tag behind it (R34). -/
def reentered (s : State) (c : Chan) (b : Berth) (card : Card) : List Claim :=
  (s.claimsOf c).live ++ [⟨b, .free, 1, 0, some card.id, 0, none, none, s.uptimeSecs,
    if (s.claimsOf c).live = [] then s.cfg.passWindow.get c * 1000 else 0⟩]

/-- The journey list with the newest entry of a card ADMITTED again on a berth's call (R112). -/
def readmitted (s : State) (b : Berth) (id : CardId) : List JourneyEntry :=
  modifyLast (fun e => e.card = id) (fun e => { e with outcome := .admitted, berth := b, line := (s.call b).line })
    s.engine.journey

/-- The state with the live free claim of a recovery or a re-release, its journey entry ADMITTED again. -/
def readmitting (s : State) (c : Chan) (b : Berth) (card : Card) : State :=
  (s.setClaims c { s.claimsOf c with live := s.reentered c b card }).setJourney (s.readmitted b card.id)

theorem readmit_eq (hb : s.berthOf c = some b) (id : CardId) : s.readmit c id = s.setJourney (s.readmitted b id) := by
  rw [readmit, hb]
  rfl

theorem acceptCase_reused (hready : s.ReadyFor c b) (hcount : (s.claimsOf c).count < 3)
    (hgrants : s.Grants b 1 false n) : s.acceptCase c card clock .reused =
      ⟨(s.readmitting c b card).deliver c (plainVerdict card .acceptFree), .acceptFree, []⟩ := by
  have hseats : s.seatsGranted b (seatRequest c card .reused s.engine.nextTag) = some n := seatsGranted_of_grants hgrants
  have hone : n = 1 := hgrants.elim And.right fun h => absurd h.1 Bool.false_ne_true
  have hrequest := requestSeats_granted (r := seatRequest c card .reused s.engine.nextTag) hready.berth hready.boarding
    hcount hseats
  have hentered : s.enterClaim c (s.newClaim b (seatRequest c card .reused s.engine.nextTag) n) =
      s.setClaims c { s.claimsOf c with live := s.reentered c b card } := by
    subst hone
    unfold enterClaim
    dsimp only
    rw [joinLive_eq]
    rfl
  have hreadmit := readmit_eq (s := s.setClaims c { s.claimsOf c with live := s.reentered c b card })
    hready.berth card.id
  rw [hready.acceptCase_eq, stageTen]
  dsimp only
  rw [if_neg (by decide), hrequest]
  show (⟨State.deliver (readmit (s.enterClaim c _) c card.id) c _, _, _⟩ : Decided) = _
  rw [hentered, hreadmit]
  rfl

/-! ### The event of a completion (R92, R105) -/

theorem exec_completion {w : Work} (hrun : s.power = .running) (hw : s.engine.work = some w)
    (hc : w.requester = .channel c) (hpresent : w.withdrawn = false) (hmark : w.mark = .none) {v : State}
    {after : List Notice} (h : s.freeEngine.completeStages c w = (v, after)) :
    exec .validationCompletion s = .next (settle s v after).select := by
  refine congrArg Host.Outcome.next ((whenRunning_running hrun _).trans ?_)
  unfold complete completeWork
  rw [hw]
  dsimp only
  rw [hc]
  dsimp only
  rw [hpresent, hmark]
  dsimp only
  rw [if_neg Bool.false_ne_true, h]

/-- What the event of a completion leaves of the state whose verdict it delivers. -/
structure Completes (s u t : State) (c : Chan) (v : Verdict) : Prop where
  frame : t = { u with
    engine := { u.engine with work := t.engine.work }
    notices := t.notices
    arbiter := t.arbiter
    channels := t.channels
    ports := t.ports }
  gates : s.GatesKept t
  port : ((u.deliver c v).port c).Settles (t.port c)

theorem settle_completes (s : State) {u : State} (hchannels : u.channels = s.channels) (hports : u.ports = s.ports)
    (c : Chan) (v : Verdict) (after : List Notice) :
    s.Completes u (settle s (u.deliver c v) after).select c v where
  frame := by
    obtain ⟨_, _, hdelivered⟩ := deliver_frame u c v
    obtain ⟨_, _, _, _, _, hframe⟩ := settleSelect_frame s (u.deliver c v) after
    rw [hframe, hdelivered]
  gates := ((GatesKept.same hchannels hports).trans (deliver_gates u c v)).trans (settleSelect_gates s _ after)
  port := settleSelect_port s _ after c

theorem Completes.outstanding {v : Verdict} (h : s.Completes u t c v) : (t.port c).outstanding = none := by
  rcases h.port.outstanding with e | e
  · rw [e, deliver_outstanding]
  · exact e

theorem Completes.awaited {v : Verdict} {w : WriteBack} (h : s.Completes u t c v) (hports : u.ports = s.ports)
    (hheld : (s.port c).outstanding ≠ none) (hv : v.writeBack = some w) :
    (t.port c).awaited = some ⟨w.tag, Config.writeMs⟩ := by
  have hport : u.port c = s.port c := by rw [State.port, State.port, hports]
  exact h.port.awaited.trans (deliver_awaited (hport ▸ hheld) hv)

theorem Completes.sending {v : Verdict} (h : s.Completes u t c v) (hports : u.ports = s.ports)
    (hheld : (s.port c).outstanding ≠ none) (hidle : (s.port c).sending = none) :
    (t.port c).sending = some (.verdict v) := by
  have hport : u.port c = s.port c := by rw [State.port, State.port, hports]
  have hsent := deliver_sending (s := u) (c := c) (v := v) (hport ▸ hheld) (hport ▸ hidle)
  rw [h.port.sending (by rw [hsent]; exact nofun), hsent]

/-- What a granted completion leaves, field by field. -/
theorem Completes.granting_frame {j : List JourneyEntry} {v : Verdict}
    (h : s.Completes ((s.freeEngine.setJourney j).granting c b card k n) t c v) : t = { s with
      claims := s.claims.set c { s.claimsOf c with
        provisional := (s.claimsOf c).provisional ++
          [⟨b, k.kind, n, 0, if k.kind = .staff then none else some card.id, k.fare, k.allot,
            some s.engine.nextTag, s.uptimeSecs, 0⟩] }
      tables := { s.tables with allot := allotGranted s.tables.allot k.allot n }
      engine := { s.engine with
        work := t.engine.work
        journey := t.engine.journey
        nextTag := if s.engine.nextTag = 65535 then 1 else s.engine.nextTag + 1
        notes := s.engine.notes.set c (some ⟨s.engine.nextTag, k.charge⟩) }
      notices := t.notices
      arbiter := t.arbiter
      channels := t.channels
      ports := t.ports } ∧ t.engine.journey = j := by
  have hjourney : t.engine.journey = j := by
    rw [h.frame]
    rfl
  rw [hjourney]
  exact ⟨h.frame, rfl⟩

/-- What a recovery or a re-release leaves, field by field. -/
theorem Completes.readmitting_frame {j : List JourneyEntry} {v : Verdict}
    (h : s.Completes ((s.freeEngine.setJourney j).readmitting c b card) t c v) : t = { s with
      claims := s.claims.set c { s.claimsOf c with live := s.reentered c b card }
      engine := { s.engine with work := t.engine.work, journey := t.engine.journey }
      notices := t.notices
      arbiter := t.arbiter
      channels := t.channels
      ports := t.ports } ∧ t.engine.journey = (s.setJourney j).readmitted b card.id := by
  have hjourney : t.engine.journey = (s.setJourney j).readmitted b card.id := by
    rw [h.frame]
    rfl
  rw [hjourney]
  exact ⟨h.frame, rfl⟩

end Sys2Proof.Machine.State

open Sys2Proof Sys2Proof.Machine Sys2Proof.Machine.State

/-- Settles O54: the card's terms carry a write-back, or are those of a recovery or a re-release. -/
theorem acceptedWorkTakesSeats : Obligations.AcceptedWorkTakesSeats := by
  intro s w c b k clock m n hrun hw hc hpresent hmark haccepts hready hcount hgrants hheld
  have hstages := completeStages_accepts (c := c) haccepts
  have hresolved : ∀ t : State, t.engine.journey = (s.resolvedIf w.card.id m).engine.journey →
    s.JourneyResolved t w.card.id m := fun t => JourneyResolved.of_resolvedIf
  have hsame : (s.resolvedIf w.card.id m).engine.journey = (s.freeEngine.resolvedIf w.card.id m).engine.journey := by
    cases m <;> rfl
  obtain ⟨j, hj⟩ := resolvedIf_frame s.freeEngine w.card.id m
  have hready' : (s.freeEngine.setJourney j).ReadyFor c b := hready.of_same rfl rfl rfl
  rw [hj] at hstages hsame
  rcases haccepts.terms with ⟨hwrites, hreuse⟩ | rfl
  · have hgranted := acceptCase_granted (card := w.card) (clock := clock) hready' hcount hgrants hwrites hreuse
    rw [hgranted, granting_spentNotice] at hstages
    have hexec := exec_completion hrun hw hc hpresent hmark hstages
    have horder := settleSelect_inOrder (s := s)
      (u := ((s.freeEngine.setJourney j).granting c b w.card k n).deliver c
        ((s.freeEngine.setJourney j).writeVerdict b w.card clock k)) (before := s) (ns := [])
      (after := (s.freeEngine.setJourney j).allotmentTaken c k.allot n) (deliver_notices _ c _)
    rw [granting_crossings (s := s.freeEngine.setJourney j) (before := s) (fun _ => rfl) rfl
      (isOpen_of_isBoarding hready.boarding) hgrants.le] at horder
    have hdone := settle_completes s (u := (s.freeEngine.setJourney j).granting c b w.card k n) rfl rfl c
      ((s.freeEngine.setJourney j).writeVerdict b w.card clock k) ((s.freeEngine.setJourney j).allotmentTaken c k.allot n)
    generalize (settle s (((s.freeEngine.setJourney j).granting c b w.card k n).deliver c
      ((s.freeEngine.setJourney j).writeVerdict b w.card clock k))
      ((s.freeEngine.setJourney j).allotmentTaken c k.allot n)).select = t at *
    obtain ⟨hframe, hjourney⟩ := hdone.granting_frame
    refine ⟨t, hexec, hdone.outstanding, hdone.gates, fun _ _ => ⟨hframe, hresolved t (hjourney.trans hsame.symm), ?_,
      horder, hdone.sending rfl hheld⟩, fun hk => ?_⟩
    · exact hdone.awaited rfl hheld rfl
    · rw [hk] at hwrites
      cases hwrites
  · have hreused := acceptCase_reused (card := w.card) (clock := clock) hready' hcount hgrants
    rw [hreused] at hstages
    have hexec := exec_completion hrun hw hc hpresent hmark hstages
    have hdone := settle_completes s (u := (s.freeEngine.setJourney j).readmitting c b w.card) rfl rfl c
      (plainVerdict w.card .acceptFree) []
    generalize (settle s (((s.freeEngine.setJourney j).readmitting c b w.card).deliver c
      (plainVerdict w.card .acceptFree)) []).select = t at *
    obtain ⟨hframe, hjourney⟩ := hdone.readmitting_frame
    refine ⟨t, hexec, hdone.outstanding, hdone.gates, nofun, fun _ => ⟨hframe, hdone.sending rfl hheld,
      fun xs e ys hsplit he hys => ?_⟩⟩
    have hbefore : j = xs ++ _ :: ys := hsame.symm.trans (resolvedIf_append hsplit he hys)
    rw [hjourney, readmitted]
    show modifyLast _ _ j = _
    rw [hbefore]
    exact modifyLast_append _ _ xs ys _ (decide_eq_true he) fun y hy => decide_eq_false (hys y hy)

end

section
/-! The resolution of a held case: its slot freed, its verdict sent, and the event that ends there. -/

namespace Sys2Proof.Machine

/-- Terms whose write-back carries the last-boarding part alone (R154). -/
structure Terms.LastOnly (k : Terms) : Prop where
  writes : k.writes = true
  reuse : k.reuse = false
  value : k.value = none
  rides : k.rides = none

namespace State

variable {s t u w : State} {c : Chan} {b : Berth} {card : Card} {clock : Option ClockTime} {k : Terms} {n : Nat}
  {B B' : Bus} {i : Slot} {code : VerdictCode}

/-! ### What stage 9 depends on -/

theorem RefusesAtCompletion.of_same (h : s.RefusesAtCompletion c code) (hchannels : u.channels = s.channels)
    (hsettings : u.settings = s.settings) (hcalls : u.calls = s.calls) : u.RefusesAtCompletion c code := by
  have hchan : u.chan c = s.chan c := by rw [chan, chan, hchannels]
  have hberth : u.berthOf c = s.berthOf c := by rw [berthOf, berthOf, hsettings]
  cases h with
  | egress hstate => exact .egress (hchan ▸ hstate)
  | suspended hstate => exact .suspended (hchan ▸ hstate)
  | service hheld hramp hservice => exact .service (hchan ▸ hheld) (hchan ▸ hramp) (hchan ▸ hservice)
  | call hheld hramp hservice hcall =>
    refine .call (hchan ▸ hheld) (hchan ▸ hramp) (hchan ▸ hservice) fun b hb => ?_
    rw [call_congr hcalls]
    exact hcall b (hberth ▸ hb)

/-- Where a call has no headroom no seat is granted of those asked. -/
theorem not_grants {seats : Nat} {partialOk : Bool} (hnone : s.headroom b = 0) (hseats : 1 ≤ seats) (n : Nat) :
    ¬s.Grants b seats partialOk n := by
  rintro (⟨hroom, -⟩ | ⟨-, hsome, -⟩) <;> omega

theorem grants_min {seats : Nat} (hroom : 1 ≤ s.headroom b) : s.Grants b seats true (min seats (s.headroom b)) := by
  rcases Nat.le_total seats (s.headroom b) with h | h
  · exact .inl ⟨h, Nat.min_eq_left h⟩
  · rcases Nat.eq_or_lt_of_le h with h' | h'
    · exact .inl ⟨Nat.le_of_eq h'.symm, by omega⟩
    · exact .inr ⟨rfl, hroom, h', Nat.min_eq_right h⟩

/-! ### A freed slot -/

/-- The state with a slot empty, under a bus port. -/
def freed (s : State) (B : Bus) (i : Slot) : State :=
  { s with
    bus := B
    engine := { s.engine with
      slot0 := if i = .s0 then none else s.engine.slot0
      slot1 := if i = .s1 then none else s.engine.slot1 } }

theorem setSlot_none (s : State) (B : Bus) (i : Slot) : ({ s with bus := B } : State).setSlot i none = s.freed B i := by
  cases i <;> rfl

theorem freed_slot (s : State) (B : Bus) (i j : Slot) : (s.freed B i).slot j = if j = i then none else s.slot j := by
  cases i <;> cases j <;> rfl

theorem freed_noted (s : State) (B : Bus) (i : Slot) (c : Chan) (charge : Charge) :
    (s.freed B i).noted c charge = (s.noted c charge).freed B i := rfl

theorem freed_granting (s : State) (B : Bus) (i : Slot) (c : Chan) (b : Berth) (card : Card) (k : Terms) (n : Nat) :
    (s.freed B i).granting c b card k n = (s.granting c b card k n).freed B i := rfl

/-- What the event that frees a slot leaves of the state found, but for what the case itself moves, which stands in
`w`. -/
structure Frees (s w t : State) (B : Bus) (i : Slot) : Prop where
  frame : t = { w with
    bus := B
    engine := { w.engine with slot0 := t.engine.slot0, slot1 := t.engine.slot1 }
    notices := t.notices
    arbiter := t.arbiter
    channels := t.channels
    ports := t.ports }
  follow : s.ChannelsFollow t
  slots : ∀ j, t.slot j = if j = i then none else s.slot j

/-- What a case moves beside its slot: no channel, port, presentation or slot. -/
structure Keeps (s w : State) : Prop where
  channels : w.channels = s.channels
  ports : w.ports = s.ports
  arbiter : w.arbiter = s.arbiter
  slots : ∀ j, w.slot j = s.slot j

theorem settle_frees (before : State) (h : s.Keeps w) (B B' : Bus) (i : Slot) (c : Chan) (v : Verdict)
    (after : List Notice) :
    s.Frees w { settle before ((w.freed B i).deliver c v) after with bus := B' } B' i ∧
      ((w.freed B i).deliver c v).PortsFollow { settle before ((w.freed B i).deliver c v) after with bus := B' } := by
  obtain ⟨_, _, hdelivered⟩ := deliver_frame (w.freed B i) c v
  obtain ⟨_, _, _, _, hframe⟩ := settle_frame before ((w.freed B i).deliver c v) after
  have hfollow : s.ChannelsFollow (settle before ((w.freed B i).deliver c v) after) :=
    ((ChannelsFollow.same (t := w.freed B i) h.channels h.ports h.arbiter).trans (deliver_follow _ c v)).trans
      (settle_follow before _ after)
  have hports := settle_portsFollow before ((w.freed B i).deliver c v) after
  have hengine : (settle before ((w.freed B i).deliver c v) after).engine = (w.freed B i).engine := by
    rw [hframe, hdelivered]
  generalize settle before ((w.freed B i).deliver c v) after = t at *
  refine ⟨⟨?_, hfollow.trans (.same rfl rfl rfl), fun j => ?_⟩, hports.trans (.same rfl rfl)⟩
  · rw [hengine, hframe, hdelivered]
    rfl
  · have hslot : t.slot j = (w.freed B i).slot j := by
      cases j
      · exact congrArg Engine.slot0 hengine
      · exact congrArg Engine.slot1 hengine
    exact hslot.trans ((freed_slot w B i j).trans (by rw [h.slots]))

/-! ### The outcome of a case at an event's end -/

/-- The state with its allotment table replaced. -/
def withAllot (s : State) (allot : List Allotment) : State := { s with tables := { s.tables with allot := allot } }

/-- The event of a case that is decided: its HEADROOM notices and those of the case, the channels' part, and the bus
port with what is answered. -/
def concluded (s : State) (B : Bus) (d : Decided) (bus : VerdictCode → Bus) : State :=
  { settle { s with bus := B } d.state d.after with bus := bus d.code }

variable {bus : VerdictCode → Bus} {allot : List Allotment}

/-- The bus port has no part in an event's notices. -/
theorem queuesInOrder_bus {ns : List Notice} (h : s.QueuesInOrder t ns) (B : Bus) :
    s.QueuesInOrder { t with bus := B } ns := fun room hroom => h room hroom

/-- A verdict delivered as the slot falls empty: the event leaves what the case moved, and queues its notices. -/
theorem deliver_concludes (h : s.Keeps w) (hnotices : w.notices = s.notices) (B : Bus) (i : Slot) (c : Chan)
    (v : Verdict) (code : VerdictCode) (after : List Notice) (bus : VerdictCode → Bus) :
    s.Frees w (s.concluded B ⟨(w.freed B i).deliver c v, code, after⟩ bus) (bus code) i ∧
      ((w.freed B i).deliver c v).PortsFollow (s.concluded B ⟨(w.freed B i).deliver c v, code, after⟩ bus) ∧
      s.QueuesInOrder (s.concluded B ⟨(w.freed B i).deliver c v, code, after⟩ bus)
        (crossing { s with bus := B } ((w.freed B i).deliver c v) .b0 ++
          crossing { s with bus := B } ((w.freed B i).deliver c v) .b1 ++ after) := by
  obtain ⟨hfrees, hports⟩ := settle_frees { s with bus := B } h B (bus code) i c v after
  have horder := settle_inOrder (s := s) (u := (w.freed B i).deliver c v) (before := { s with bus := B }) (ns := [])
    (after := after) ((deliver_notices _ c v).trans hnotices)
  exact ⟨hfrees, hports, queuesInOrder_bus horder (bus code)⟩

theorem refuse_concludes (h : s.Keeps w) (hnotices : w.notices = s.notices) (B : Bus) (i : Slot) (c : Chan)
    (card : Card) (code : VerdictCode) (bus : VerdictCode → Bus) :
    s.Frees w (s.concluded B ((w.freed B i).refuseCase c card code) bus) (bus code) i ∧
      s.Answers (s.concluded B ((w.freed B i).refuseCase c card code) bus) c card code := by
  obtain ⟨hfrees, hports, -⟩ := deliver_concludes h hnotices B i c (plainVerdict card code) code [] bus
  have hport : s.port c = (w.freed B i).port c := by rw [State.port, ← h.ports]; rfl
  exact ⟨hfrees, ((deliver_answers (w.freed B i) c card code).settles hports).of_port hport⟩

/-- Stage 9 refuses the case. -/
theorem stageNine_concludes (h : s.RefusesAtCompletion c code) (B : Bus) (i : Slot) (card : Card)
    (bus : VerdictCode → Bus) (allot : List Allotment) (clock : Option ClockTime) (k : Terms) :
    s.Frees (s.withAllot allot)
        (s.concluded B (((s.withAllot allot).freed B i).acceptCase c card clock k) bus) (bus code) i ∧
      s.Answers (s.concluded B (((s.withAllot allot).freed B i).acceptCase c card clock k) bus) c card code := by
  have hrefuses : ((s.withAllot allot).freed B i).RefusesAtCompletion c code := h.of_same rfl rfl rfl
  have hkeeps : s.Keeps (s.withAllot allot) := ⟨rfl, rfl, rfl, fun j => by cases j <;> rfl⟩
  rw [acceptCase_refused hrefuses]
  exact refuse_concludes hkeeps rfl B i c card code bus

/-- Stage 10 has no seat for the case. -/
theorem full_concludes (hready : s.ReadyFor c b) (hwrites : k.writes = true)
    (h : 3 ≤ (s.claimsOf c).count ∨ ∀ n, ¬s.Grants b k.seats k.partialOk n) (B : Bus) (i : Slot) (card : Card)
    (bus : VerdictCode → Bus) (allot : List Allotment) (clock : Option ClockTime) :
    s.Frees ((s.withAllot allot).noted c k.charge)
        (s.concluded B (((s.withAllot allot).freed B i).acceptCase c card clock k) bus) (bus .full) i ∧
      s.Answers (s.concluded B (((s.withAllot allot).freed B i).acceptCase c card clock k) bus) c card .full := by
  have hready' : ((s.withAllot allot).freed B i).ReadyFor c b := hready.of_same rfl rfl rfl
  have hkeeps : s.Keeps ((s.withAllot allot).noted c k.charge) := ⟨rfl, rfl, rfl, fun j => by cases j <;> rfl⟩
  rw [acceptCase_full hready' hwrites h, freed_noted]
  exact refuse_concludes hkeeps rfl B i c card .full bus

/-- Stage 10 grants seats to the case. -/
theorem grant_concludes (hready : s.ReadyFor c b) (hcount : (s.claimsOf c).count < 3)
    (hgrants : s.Grants b k.seats k.partialOk n) (hk : k.LastOnly) (B : Bus) (i : Slot) (card : Card)
    (bus : VerdictCode → Bus) (allot : List Allotment) :
    s.Frees ((s.withAllot allot).granting c b card k n)
        (s.concluded B (((s.withAllot allot).freed B i).acceptCase c card s.clock k) bus) (bus k.code) i ∧
      s.AnswersWithWrite (s.concluded B (((s.withAllot allot).freed B i).acceptCase c card s.clock k) bus) c b card
        k.code k.fare ∧
      s.QueuesInOrder (s.concluded B (((s.withAllot allot).freed B i).acceptCase c card s.clock k) bus)
        (s.headroomTaken b n ++ (s.withAllot allot).allotmentTaken c k.allot n) := by
  have hready' : ((s.withAllot allot).freed B i).ReadyFor c b := hready.of_same rfl rfl rfl
  have hkeeps : s.Keeps ((s.withAllot allot).granting c b card k n) := ⟨rfl, rfl, rfl, fun j => by cases j <;> rfl⟩
  have hverdict : ((s.withAllot allot).freed B i).writeVerdict b card s.clock k = s.writeVerdict b card s.clock k := rfl
  have hspent : ((s.withAllot allot).freed B i).allotmentTaken c k.allot n =
      (s.withAllot allot).allotmentTaken c k.allot n := rfl
  have hcross : crossing { s with bus := B } _ .b0 ++ crossing { s with bus := B } _ .b1 = s.headroomTaken b n :=
    granting_crossings (s := (s.withAllot allot).freed B i) (c := c) (card := card) (k := k) (fun _ => rfl) rfl
      (isOpen_of_isBoarding hready.boarding) hgrants.le (s.writeVerdict b card s.clock k)
  rw [acceptCase_granted hready' hcount hgrants hk.writes hk.reuse, granting_spentNotice, hverdict, hspent,
    freed_granting]
  rw [freed_granting] at hcross
  have hanswers : s.AnswersWithWrite ((((s.withAllot allot).granting c b card k n).freed B i).deliver c
      (s.writeVerdict b card s.clock k)) c b card k.code k.fare := deliver_answersWithWrite rfl hk.value hk.rides
  obtain ⟨hfrees, hports, horder⟩ := deliver_concludes hkeeps rfl B i c (s.writeVerdict b card s.clock k) k.code
    ((s.withAllot allot).allotmentTaken c k.allot n) bus
  rw [hcross] at horder
  exact ⟨hfrees, hanswers.settles hports, horder⟩

end State

end Sys2Proof.Machine
end

section
/-! The events that resolve a held case: the run-out of its referral timer, and REFER_ANSWER. -/

namespace Sys2Proof.Machine

/-! ### The terms of a fallback and of an answer (Tables 9-1 and 9-2) -/

theorem Terms.LastOnly.plain (code : VerdictCode) (kind : ClaimKind) : (Terms.plain code kind).LastOnly :=
  ⟨rfl, rfl, rfl, rfl⟩

namespace State

theorem fallbackTerms_lastOnly (block : Nat) (cause : Cause) : (fallbackTerms block cause).LastOnly := by
  cases cause <;> exact ⟨rfl, rfl, rfl, rfl⟩

theorem fallbackTerms_charge (block : Nat) (cause : Cause) : (fallbackTerms block cause).charge = .none := by
  cases cause <;> rfl

theorem fallbackTerms_free (block : Nat) (cause : Cause) :
    (fallbackTerms block cause).fare = 0 ∧ (fallbackTerms block cause).allot = none := by
  cases cause <;> exact ⟨rfl, rfl⟩

theorem fallbackTerms_seats {block : Nat} {cause : Cause} (h : (∃ x y, cause = .allotmentSpent x y) → 1 ≤ block) :
    1 ≤ (fallbackTerms block cause).seats := by
  cases cause with
  | unknownProduct => exact Nat.le_refl 1
  | account f p => exact Nat.le_refl 1
  | allotmentSpent x y => exact h ⟨x, y, rfl⟩

variable {s t w : State} {i : Slot} {r : Referral} {c : Chan} {b : Berth} {card : Card} {cause : Cause} {block : Nat}
  {B : Bus} {code : VerdictCode} {v : AnswerVerdict} {fare extra id : Nat}

/-! ### The fallback of a freed case (R155) -/

theorem fallback_refused (h : s.FallbackIs .refuse cause) : (s.freed B i).fallback c card cause block =
    (s.freed B i).refuseCase c card (fallbackRefusal cause) := by
  have h' : (s.freed B i).fallbackOf cause = .refuse := h.fallbackOf_eq
  rw [fallback, h']

theorem fallback_accepted (h : s.FallbackIs .accept cause) : (s.freed B i).fallback c card cause block =
    ((s.withAllot s.tables.allot).freed B i).acceptCase c card s.clock (fallbackTerms block cause) := by
  have h' : (s.freed B i).fallbackOf cause = .accept := h.fallbackOf_eq
  rw [fallback, h']
  rfl

theorem fallbackRefusal_eq (cause : Cause) : fallbackRefusal cause = refusedAs cause.kind := by
  cases cause <;> rfl

theorem acceptCase_bus (s : State) (c : Chan) (card : Card) (clock : Option ClockTime) (k : Terms) :
    (s.acceptCase c card clock k).state.bus = s.bus := by
  obtain ⟨_, _, _, _, _, h⟩ := acceptCase_frame s c card clock k
  rw [h]

theorem fallback_bus (s : State) (c : Chan) (card : Card) (cause : Cause) (block : Nat) :
    (s.fallback c card cause block).state.bus = s.bus := by
  obtain ⟨_, _, _, _, _, h⟩ := fallback_frame s c card cause block
  rw [h]

/-! ### The slot of a referral id (R153) -/

theorem slotWithId_some (h : s.slot i = some r) (hfirst : i = .s1 → ∀ r', s.slot .s0 = some r' → r'.id ≠ r.id) :
    s.slotWithId r.id = some (i, r) := by
  cases i with
  | s0 =>
    have h : s.engine.slot0 = some r := h
    unfold slotWithId
    rw [h]
    exact if_pos rfl
  | s1 =>
    have h : s.engine.slot1 = some r := h
    have hfirst : ∀ r', s.engine.slot0 = some r' → r'.id ≠ r.id := hfirst rfl
    unfold slotWithId
    rw [h]
    cases hother : s.engine.slot0 with
    | none => exact if_pos rfl
    | some r' => exact (if_neg (hfirst r' hother)).trans (if_pos rfl)

theorem slotWithId_none (h : ∀ i r, s.slot i = some r → r.id ≠ id) : s.slotWithId id = none := by
  have h0 : ∀ r, s.engine.slot0 = some r → r.id ≠ id := h .s0
  have h1 : ∀ r, s.engine.slot1 = some r → r.id ≠ id := h .s1
  unfold slotWithId
  cases hslot0 : s.engine.slot0 with
  | none =>
    cases hslot1 : s.engine.slot1 with
    | none => rfl
    | some r => exact if_neg (h1 r hslot1)
  | some r =>
    refine (if_neg (h0 r hslot0)).trans ?_
    cases hslot1 : s.engine.slot1 with
    | none => rfl
    | some r' => exact if_neg (h1 r' hslot1)

/-! ### REFER_ANSWER (R153, R154) -/

theorem answerFieldsOk_of (hid : id ≠ 0) (hfare : fare ≤ 5000) (hextra : extra ≤ 999) :
    answerFieldsOk id fare extra = true := by
  simp [answerFieldsOk, hid, hfare, hextra, Config.maxFare]

theorem actReferAnswer_badField {verdict : Option AnswerVerdict} (h : id = 0 ∨ verdict = none ∨ 5000 < fare ∨ 999 < extra) :
    actReferAnswer id verdict fare extra s = .refuse s .badField := by
  unfold actReferAnswer
  cases verdict with
  | none => rfl
  | some v =>
    have hfields : answerFieldsOk id fare extra = false := by
      rcases h with rfl | hnone | hpast | hpast
      · rfl
      · cases hnone
      · simp [answerFieldsOk, Config.maxFare, Nat.not_le.mpr hpast]
      · simp [answerFieldsOk, Nat.not_le.mpr hpast]
    rw [hfields]
    rfl

theorem actReferAnswer_late (hid : id ≠ 0) (hfare : fare ≤ 5000) (hextra : extra ≤ 999)
    (h : ∀ i r, s.slot i = some r → r.id ≠ id) : actReferAnswer id (some v) fare extra s = .refuse s .late := by
  unfold actReferAnswer
  dsimp only
  rw [answerFieldsOk_of hid hfare hextra, slotWithId_none h]
  rfl

theorem actReferAnswer_misfit (hid : r.id ≠ 0) (hfare : fare ≤ 5000) (hextra : extra ≤ 999)
    (hslot : s.slotWithId r.id = some (i, r)) (h : s.answerMisfits r v fare extra = true) :
    actReferAnswer r.id (some v) fare extra s = .refuse s .badField := by
  unfold actReferAnswer
  dsimp only
  rw [answerFieldsOk_of hid hfare hextra, hslot]
  dsimp only
  rw [h]
  rfl

theorem actReferAnswer_taken (hid : r.id ≠ 0) (hfare : fare ≤ 5000) (hextra : extra ≤ 999)
    (hslot : s.slotWithId r.id = some (i, r)) (h : s.answerMisfits r v fare extra = false) :
    actReferAnswer r.id (some v) fare extra s =
      .ok (settle s (s.answerReferral i r v fare extra).state (s.answerReferral i r v fare extra).after)
        (.answered r.id (s.answerReferral i r v fare extra).code) := by
  unfold actReferAnswer
  dsimp only
  rw [answerFieldsOk_of hid hfare hextra, hslot]
  dsimp only
  rw [h]
  rfl

theorem answerReferral_bus (s : State) (i : Slot) (r : Referral) (v : AnswerVerdict) (fare extra : Nat) :
    (s.answerReferral i r v fare extra).state.bus = s.bus := by
  have hfreed : (s.setSlot i none).bus = s.bus := setSlot_bus s i none
  cases v with
  | refuse =>
    obtain ⟨_, _, h⟩ := deliver_frame (s.setSlot i none) r.channel (plainVerdict r.card .refusedOnline)
    exact (congrArg State.bus h).trans hfreed
  | undecided => exact (fallback_bus _ _ _ _ _).trans hfreed
  | accept =>
    unfold answerReferral
    dsimp only
    refine (acceptCase_bus _ _ _ _ _).trans ?_
    cases r.cause <;> exact hfreed

/-- The bus port after a REFER_ANSWER that is taken. -/
def answeredBus (s : State) (id : Nat) (code : VerdictCode) : Bus :=
  s.repliedBus .referAnswer .part .ok (.answered id code)

theorem exec_referAnswer (hrun : s.power = .running) (hid : r.id ≠ 0) (hfare : fare ≤ 5000) (hextra : extra ≤ 999)
    (hslot : s.slotWithId r.id = some (i, r)) (h : s.answerMisfits r v fare extra = false) :
    exec (.referAnswer .fits r.id (some v) fare extra) s =
      .next (s.concluded s.beginRequest.bus (s.beginRequest.answerReferral i r v fare extra) (s.answeredBus r.id)) := by
  have hact := actReferAnswer_taken (s := s.beginRequest) (v := v) hid hfare hextra hslot h
  have hbus := answerReferral_bus s.beginRequest i r v fare extra
  refine congrArg Host.Outcome.next ((request_acts hrun hact ?_).trans rfl)
  rw [settle_bus, hbus]

theorem exec_referralTimer (hrun : s.power = .running) (hslot : s.slot i = some r) (hleft : r.left = 0) :
    exec (.referralTimerExpiry i) s = .next (s.concluded s.bus
      ((s.freed s.bus i).fallback r.channel r.card r.cause r.block) fun _ => s.bus) := by
  have hbus : (settle s ((s.freed s.bus i).fallback r.channel r.card r.cause r.block).state
      ((s.freed s.bus i).fallback r.channel r.card r.cause r.block).after).bus = s.bus := by
    rw [settle_bus, fallback_bus]
    rfl
  refine congrArg Host.Outcome.next ((whenRunning_running hrun _).trans ?_)
  unfold referralRunsOut resolveByFallback
  rw [hslot]
  dsimp only
  rw [if_pos hleft]
  have hfreed : s.setSlot i none = s.freed s.bus i := setSlot_none s s.bus i
  rw [hfreed, concluded]
  generalize settle s _ _ = t at *
  rw [← hbus]

end State

end Sys2Proof.Machine
end

section
/-! The fallback of a held case: what it does, in every state, and what it leaves as it was. -/

namespace Sys2Proof.Machine

theorem askedBy_kind {block seats : Nat} {cause : Cause} {kind : ClaimKind} {partialOk : Bool} {code : VerdictCode}
    (h : askedBy block cause.kind = (kind, seats, partialOk, code)) : kind ≠ .staff := by
  cases cause <;> cases h <;> exact nofun

namespace State

variable {s t u z : State} {r : Referral} {c : Chan} {b : Berth} {code : VerdictCode} {o : Option Referral}

/-! ### Stage 9 refuses a case or passes it (R111) -/

theorem refuses_or_ready (s : State) (c : Chan) : (∃ code, s.RefusesAtCompletion c code) ∨ ∃ b, s.ReadyFor c b := by
  by_cases hheld : (s.chan c).state = .egressHeld
  · exact .inl ⟨_, .egress hheld⟩
  by_cases hramp : (s.chan c).state = .suspended
  · exact .inl ⟨_, .suspended hramp⟩
  cases hservice : (s.chan c).service with
  | outOfService => exact .inl ⟨_, .service hheld hramp hservice⟩
  | inService =>
    by_cases hcall : ∃ b, s.berthOf c = some b ∧ (s.call b).state.isBoarding = true
    · obtain ⟨b, hb, hboarding⟩ := hcall
      exact .inr ⟨b, hheld, hramp, hservice, hb, hboarding⟩
    · exact .inl ⟨_, .call hheld hramp hservice fun b hb => Bool.eq_false_iff.mpr fun h => hcall ⟨b, hb, h⟩⟩

/-! ### What a refusal and a grant without an allotment are made of -/

theorem refuseCase_withLine (s : State) (c : Chan) (card : Card) (code : VerdictCode) :
    (s.refuseCase c card code).state = s.withLine (s.refuseCase c card code).state c :=
  deliver_withLine s c (plainVerdict card code)

theorem refuseCase_answers (s : State) (c : Chan) (card : Card) (code : VerdictCode) :
    s.Answers (s.refuseCase c card code).state c card code := deliver_answers s c card code

theorem granting_plain {kind : ClaimKind} (hkind : kind ≠ .staff) (s : State) (c : Chan) (b : Berth) (card : Card)
    (code : VerdictCode) (seats : Nat) (partialOk : Bool) (n : Nat) :
    s.granting c b card { Terms.plain code kind with seats := seats, partialOk := partialOk } n = { s.tagged c with
      claims := s.claims.set c { s.claimsOf c with
        provisional := (s.claimsOf c).provisional ++
          [⟨b, kind, n, 0, some card.id, 0, none, some s.engine.nextTag, s.uptimeSecs, 0⟩] } } := by
  have hcard : (if kind = .staff then none else some card.id) = some card.id := if_neg hkind
  rw [← hcard]
  rfl

theorem fallsBack_of_granting {k : Terms} {kind : ClaimKind} {seats n : Nat} {partialOk : Bool}
    (hk : k = { Terms.plain code kind with seats := seats, partialOk := partialOk })
    (haccept : s.FallbackIs .accept r.cause) (hasked : askedBy r.block r.cause.kind = (kind, seats, partialOk, code))
    (hready : s.ReadyFor r.channel b) (hcount : (s.claimsOf r.channel).count < 3)
    (hgrants : s.Grants b seats partialOk n) :
    s.FallsBack ((s.granting r.channel b r.card k n).deliver r.channel (s.writeVerdict b r.card s.clock k)) r code := by
  have hanswers : s.AnswersWithWrite ((s.granting r.channel b r.card k n).deliver r.channel
      (s.writeVerdict b r.card s.clock k)) r.channel b r.card k.code k.fare :=
    deliver_answersWithWrite rfl (by rw [hk]; rfl) (by rw [hk]; rfl)
  have hline := deliver_withLine (s.granting r.channel b r.card k n) r.channel (s.writeVerdict b r.card s.clock k)
  generalize (s.granting r.channel b r.card k n).deliver r.channel (s.writeVerdict b r.card s.clock k) = u at *
  subst hk
  rw [granting_plain (askedBy_kind hasked)] at hline
  exact .granted b kind seats partialOk n code haccept hasked hready hcount hgrants hline hanswers

/-! ### A fallback does what the certificate says (R155) -/

theorem fallbackIs_of {cause : Cause} {f : Fallback} (h : s.fallbackOf cause = f) : s.FallbackIs f cause := by
  cases cause <;> exact h

theorem fallback_fallsBack (s : State) (r : Referral) :
    s.FallsBack (s.fallback r.channel r.card r.cause r.block).state r
      (s.fallback r.channel r.card r.cause r.block).code := by
  obtain ⟨⟨kind, seats, partialOk, code⟩, hasked⟩ : ∃ x, askedBy r.block r.cause.kind = x := ⟨_, rfl⟩
  unfold fallback
  cases hf : s.fallbackOf r.cause with
  | refuse =>
    have hrefuse := fallbackIs_of hf
    dsimp only
    rw [fallbackRefusal_eq]
    exact .refused hrefuse (refuseCase_withLine s _ _ _) (refuseCase_answers s _ _ _)
  | accept =>
    have haccept := fallbackIs_of hf
    dsimp only
    rw [fallbackTerms_of_askedBy hasked]
    rcases refuses_or_ready s r.channel with ⟨code, hrefuses⟩ | ⟨b, hready⟩
    · rw [acceptCase_refused hrefuses]
      exact .stageNine code haccept hrefuses (refuseCase_withLine s _ _ _) (refuseCase_answers s _ _ _)
    · by_cases hroom : 3 ≤ (s.claimsOf r.channel).count ∨ ∀ n, ¬s.Grants b seats partialOk n
      · have hanswers : s.Answers ((s.tagged r.channel).refuseCase r.channel r.card .full).state r.channel r.card .full :=
          (refuseCase_answers (s.tagged r.channel) _ _ _).of_port rfl
        rw [acceptCase_full hready rfl hroom]
        exact .full b kind seats partialOk code haccept hasked hready hroom
          (refuseCase_withLine (s.tagged r.channel) _ _ _) hanswers
      · obtain ⟨hcount, hgrants⟩ := not_or.mp hroom
        obtain ⟨n, hn⟩ := not_forall_not.mp hgrants
        rw [acceptCase_granted hready (Nat.not_le.mp hcount) hn rfl rfl]
        exact fallsBack_of_granting rfl haccept hasked hready (Nat.not_le.mp hcount) hn

end State

end Sys2Proof.Machine
end

section
/-! What a fallback leaves as it was, and the supervision timer's run-out, which resolves both slots in turn. -/

namespace Sys2Proof.Machine.State

variable {s t u x : State} {r : Referral} {c : Chan} {b : Berth} {code : VerdictCode} {o : Option Referral}

/-! ### What a verdict at a channel leaves -/

theorem withLine_follow (s u : State) (c : Chan) : s.ChannelsFollow (s.withLine u c) where
  gates :=
    { gate := fun d => by
        show (s.chan d).SameGate ((s.setChan c _).chan d)
        rw [chan_setChan]
        split
        · next hd =>
          subst hd
          exact ⟨rfl, rfl, rfl, rfl, rfl, rfl, rfl, rfl, rfl, rfl, rfl, rfl, rfl⟩
        · exact .same _
      line := fun d => by
        show (s.port d).SameLine ((s.setPort c _).port d)
        rw [port_setPort]
        split
        · next hd =>
          subst hd
          exact ⟨rfl, rfl, rfl, rfl⟩
        · exact .same _ }
  desk := rfl
  occupied := rfl
  place _ := .inl rfl

theorem withLine_outstanding (s u : State) (c d : Chan) : ((s.withLine u c).port d).outstanding =
    if d = c then (u.port c).outstanding else (s.port d).outstanding := by
  show ((s.setPort c _).port d).outstanding = _
  rw [port_setPort]
  split <;> rfl

/-- A state with another's bus port, notices and slots. -/
def dressed (s : State) (B : Bus) (q : NoticeQueue) (s0 s1 : Option Referral) : State :=
  { s with bus := B, notices := q, engine := { s.engine with slot0 := s0, slot1 := s1 } }

/-- Neither the bus port nor the notices nor what the slots hold has a part in a fallback. -/
theorem FallsBack.dressed (h : s.FallsBack u r code) (B : Bus) (q : NoticeQueue) (s0 s1 : Option Referral) :
    (s.dressed B q s0 s1).FallsBack (u.dressed B q s0 s1) r code := by
  cases h with
  | refused hf hu ha => 
    refine .refused hf ?_ ⟨ha.taken, ha.verdict⟩
    exact congrArg (fun x : State => x.dressed B q s0 s1) hu
  | stageNine _ hf hn hu ha =>
    exact .stageNine _ hf (hn.of_same rfl rfl rfl) (congrArg (fun x : State => x.dressed B q s0 s1) hu) ⟨ha.taken, ha.verdict⟩
  | full b kind seats partialOk code hf hasked hready hroom hu ha =>
    exact .full b kind seats partialOk code hf hasked (hready.of_same rfl rfl rfl) hroom
      (congrArg (fun x : State => x.dressed B q s0 s1) hu) ⟨ha.taken, ha.verdict⟩
  | granted b kind seats partialOk n code hf hasked hready hcount hn hu ha =>
    exact .granted b kind seats partialOk n code hf hasked (hready.of_same rfl rfl rfl) hcount hn
      (congrArg (fun x : State => x.dressed B q s0 s1) hu) ⟨ha.taken, ha.awaited, ha.verdict⟩

/-- What resolving a case by fallback moves, and what it leaves. -/
structure Resolves (s u : State) : Prop where
  frame : u = { s with
    claims := u.claims
    engine := { s.engine with nextTag := u.engine.nextTag, notes := u.engine.notes }
    channels := u.channels
    ports := u.ports }
  follow : s.ChannelsFollow u
  headroom : ∀ d, u.headroom d = s.headroom d ∨ (s.call d).state.isOpen = true
  outstanding : ∀ d, (u.port d).outstanding = (s.port d).outstanding ∨ (u.port d).outstanding = none

theorem Resolves.same (s : State) : s.Resolves s :=
  ⟨rfl, .same rfl rfl rfl, fun _ => .inl rfl, fun _ => .inl rfl⟩

theorem Resolves.call (h : s.Resolves u) (d : Berth) : u.call d = s.call d := by
  rw [h.frame]
  rfl

theorem Resolves.trans (h : s.Resolves u) (g : u.Resolves t) : s.Resolves t where
  frame := by
    refine g.frame.trans ?_
    rw [h.frame]
  follow := h.follow.trans g.follow
  headroom d := by
    rcases g.headroom d with e | e
    · rw [e]
      exact h.headroom d
    · rw [h.call] at e
      exact .inr e
  outstanding d := by
    rcases g.outstanding d with e | e
    · rw [e]
      exact h.outstanding d
    · exact .inr e

theorem resolves_withLine (hline : u = x.withLine u c) (htaken : (u.port c).outstanding = none)
    (hx : x = { s with
      claims := x.claims
      engine := { s.engine with nextTag := x.engine.nextTag, notes := x.engine.notes } })
    (hroom : ∀ d, x.headroom d = s.headroom d ∨ (s.call d).state.isOpen = true) : s.Resolves u where
  frame := by
    rw [hline, hx]
    rfl
  follow := by
    rw [hline]
    refine ChannelsFollow.trans ?_ (withLine_follow x u c)
    rw [hx]
    exact .same rfl rfl rfl
  headroom d := by
    rw [hline]
    exact hroom d
  outstanding d := by
    have hd := withLine_outstanding x u c d
    rw [← hline] at hd
    have hports : x.port d = s.port d := by
      rw [hx]
      rfl
    rw [hd]
    split
    · exact .inr htaken
    · exact .inl (congrArg Port.outstanding hports)

theorem FallsBack.taken (h : s.FallsBack u r code) : (u.port r.channel).outstanding = none := by
  cases h with
  | refused _ _ ha => exact ha.taken
  | stageNine _ _ _ _ ha => exact ha.taken
  | full _ _ _ _ _ _ _ _ _ _ ha => exact ha.taken
  | granted _ _ _ _ _ _ _ _ _ _ _ _ ha => exact ha.taken

theorem FallsBack.resolves (h : s.FallsBack u r code) : s.Resolves u := by
  have htaken := h.taken
  cases h with
  | refused _ hline _ => exact resolves_withLine hline htaken rfl fun _ => .inl rfl
  | stageNine _ _ _ hline _ => exact resolves_withLine hline htaken rfl fun _ => .inl rfl
  | full _ _ _ _ _ _ _ _ _ hline _ => exact resolves_withLine hline htaken rfl fun _ => .inl rfl
  | granted b kind seats partialOk n code hf hasked hready hcount hn hline _ =>
    refine resolves_withLine hline htaken rfl fun d => ?_
    rw [← granting_plain (askedBy_kind hasked) s r.channel b r.card code seats partialOk n, granting_headroom]
    by_cases hd : d = b
    · subst hd
      exact .inr (isOpen_of_isBoarding hready.boarding)
    · rw [if_neg hd]
      exact .inl rfl

theorem SlotFallsBack.resolves (h : s.SlotFallsBack u o) : s.Resolves u := by
  cases o with
  | none =>
    cases h
    exact .same s
  | some r => exact h.elim fun _ hf => hf.resolves

theorem SlotFallsBack.dressed (h : s.SlotFallsBack u o) (B : Bus) (q : NoticeQueue) (s0 s1 : Option Referral) :
    (s.dressed B q s0 s1).SlotFallsBack (u.dressed B q s0 s1) o := by
  cases o with
  | none => exact congrArg (fun x : State => x.dressed B q s0 s1) h
  | some r => exact h.elim fun code hf => ⟨code, hf.dressed B q s0 s1⟩

/-! ### A fallback has no notice of its own (R160) -/

theorem stageTen_after {k : Terms} (hk : k.allot = none) (s : State) (c : Chan) (card : Card)
    (clock : Option ClockTime) : (s.stageTen c card clock k).after = [] := by
  unfold stageTen
  dsimp only
  rw [hk]
  split <;> rfl

theorem acceptCase_after {k : Terms} (hk : k.allot = none) (s : State) (c : Chan) (card : Card)
    (clock : Option ClockTime) : (s.acceptCase c card clock k).after = [] := by
  unfold acceptCase
  split
  · rfl
  · exact stageTen_after hk s c card clock

theorem fallback_after (s : State) (c : Chan) (card : Card) (cause : Cause) (block : Nat) :
    (s.fallback c card cause block).after = [] := by
  have hallot : (fallbackTerms block cause).allot = none := by cases cause <;> rfl
  unfold fallback
  split
  · rfl
  · exact acceptCase_after hallot s c card s.clock

/-- A slot resolved by fallback. -/
theorem resolveByFallback_fallsBack (s : State) (i : Slot) :
    (s.setSlot i none).SlotFallsBack (s.resolveByFallback i).1 (s.slot i) ∧ (s.resolveByFallback i).2 = [] := by
  unfold resolveByFallback
  cases h : s.slot i with
  | none =>
    have hsame : s.setSlot i none = s := by
      rw [← h]
      exact setSlot_self s i
    exact ⟨hsame.symm, rfl⟩
  | some r => exact ⟨⟨_, fallback_fallsBack (s.setSlot i none) r⟩, fallback_after _ _ _ _ _⟩

/-! ### The run-out of the supervision timer (R179) -/

/-- The bus port with the host SILENT (R179). -/
def silentBus (s : State) : Bus := { s.bus with supervision := none, silent := true }

/-- The notices with the lapse of the supervision timer (R179). -/
def lapsedNotices (s : State) : NoticeQueue :=
  addNotice s.notices (.supervisionLapse (s.uptime / 1000) s.bus.period)

/-- The state that the run-out resolves the slots in: the host SILENT, and the lapse queued. -/
def silenced (s : State) : State :=
  { s with bus := s.silentBus }.queue (.supervisionLapse s.uptimeSecs s.bus.period)

/-- The state with both slots empty. -/
def unslotted (s : State) : State := s.dressed s.bus s.notices none none

/-- The run-out resolves both slots in turn, and the event then ends. -/
theorem supervisionRunsOut_eq (htimer : s.bus.supervision = some 0) (hheard : s.bus.silent = false) :
    ∃ u v, s.unslotted.SlotFallsBack u (s.slot .s0) ∧ u.SlotFallsBack v (s.slot .s1) ∧
      s.supervisionRunsOut = settle s (v.dressed s.silentBus s.lapsedNotices none none) [] := by
  have hsilenced : s.silenced =
      s.dressed s.silentBus s.lapsedNotices s.engine.slot0 s.engine.slot1 := queue_eq _ _
  generalize hz : s.dressed s.silentBus s.lapsedNotices s.engine.slot0 s.engine.slot1 = z at hsilenced
  obtain ⟨hfirst, hafter⟩ := resolveByFallback_fallsBack z .s0
  obtain ⟨hsecond, hafter'⟩ := resolveByFallback_fallsBack (z.resolveByFallback .s0).1 .s1
  have hruns : s.supervisionRunsOut = settle s ((z.resolveByFallback .s0).1.resolveByFallback .s1).1 [] := by
    unfold supervisionRunsOut
    rw [htimer, hheard, if_neg (by decide)]
    show settle s ((s.silenced.resolveByFallback .s0).1.resolveByFallback .s1).1
      ((s.silenced.resolveByFallback .s0).2 ++
        ((s.silenced.resolveByFallback .s0).1.resolveByFallback .s1).2) = _
    rw [hsilenced, hafter, hafter']
    rfl
  generalize (z.resolveByFallback .s0).1 = y at *
  generalize (y.resolveByFallback .s1).1 = m at *
  have hy := hfirst.resolves.frame
  have hm := hsecond.resolves.frame
  subst hz
  have hslot : y.slot .s1 = s.slot .s1 := by
    rw [hy]
    rfl
  rw [hslot] at hsecond
  have hdressed : m = (m.dressed s.bus s.notices none none).dressed s.silentBus s.lapsedNotices none none := by
    rw [hm, hy]
    rfl
  refine ⟨_, _, hfirst.dressed s.bus s.notices none none, hsecond.dressed s.bus s.notices none none, ?_⟩
  rw [← hdressed]
  exact hruns

end Sys2Proof.Machine.State
end

section
/-! The events that end in a fallback, and what they leave of the state found. -/

namespace Sys2Proof.Machine.State

variable {s t u v : State} {r : Referral} {c : Chan} {b : Berth} {card : Card} {code : VerdictCode} {i : Slot}
  {k : Terms} {n : Nat} {B B' : Bus} {bus : VerdictCode → Bus} {allot : List Allotment} {instr : Instr}

/-! ### The event of the supervision timer -/

/-- What the run-out of the supervision timer leaves, where its two fallbacks end in a state `v`. -/
structure Lapses (s v t : State) : Prop where
  frame : t = { s with
    bus := { s.bus with supervision := none, silent := true }
    claims := v.claims
    engine := { s.engine with
      slot0 := none
      slot1 := none
      nextTag := v.engine.nextTag
      notes := v.engine.notes }
    notices := t.notices
    arbiter := t.arbiter
    channels := t.channels
    ports := t.ports }
  follow : s.ChannelsFollow t
  port : ∀ c, (v.port c).Settles (t.port c)
  notices : s.QueuesInOrder t (.supervisionLapse (s.uptime / 1000) s.bus.period ::
    (s.headroomNotice t .b0 ++ s.headroomNotice t .b1))

/-- A call whose headroom the fallbacks moved is open, since they grant seats of boarding calls alone (R21). -/
theorem Resolves.crossing_eq (h : s.unslotted.Resolves v) (hcalls : u.calls = v.calls) (hclaims : u.claims = v.claims)
    (b : Berth) (hroom : t.headroom b = u.headroom b) : crossing s u b = s.headroomNotice t b := by
  have hu : u.headroom b = v.headroom b := headroom_congr hcalls hclaims b
  have hcall : u.call b = s.call b := (call_congr hcalls b).trans (h.call b)
  have hmoved : v.headroom b = s.headroom b ∨ (s.call b).state.isOpen = true := h.headroom b
  have hnotice : s.headroomNotice t b = s.headroomNotice u b := by
    unfold headroomNotice
    rw [hroom]
  rw [hnotice]
  rcases hmoved with hsame | hopen
  · rw [crossing_same (hu.trans hsame), headroomNotice, hu, hsame, if_neg]
    omega
  · exact State.crossing_eq hopen (by rw [hcall]; exact hopen) (by rw [hcall])

theorem unslotted_self (h0 : s.slot .s0 = none) (h1 : s.slot .s1 = none) : s.unslotted = s := by
  have hself : s.dressed s.bus s.notices (s.slot .s0) (s.slot .s1) = s := rfl
  rwa [h0, h1] at hself

theorem settle_lapses (h : s.unslotted.Resolves v) :
    s.Lapses v (settle s (v.dressed s.silentBus s.lapsedNotices none none) []) := by
  generalize hu : v.dressed s.silentBus s.lapsedNotices none none = u
  obtain ⟨_, _, _, _, hframe⟩ := settle_frame s u []
  have hfollow : s.ChannelsFollow u := by
    subst hu
    have hbefore : s.ChannelsFollow s.unslotted := .same rfl rfl rfl
    exact (hbefore.trans h.follow).trans (.same rfl rfl rfl)
  have horder := settle_inOrder (s := s) (u := u) (before := s) (after := [])
    (ns := [.supervisionLapse (s.uptime / 1000) s.bus.period]) (by rw [← hu]; rfl)
  have hroom := settle_headroom s u []
  have hsettled := settle_follow s u []
  have hports := settle_portsFollow s u []
  generalize settle s u [] = t at *
  rw [h.crossing_eq (by rw [← hu]; rfl) (by rw [← hu]; rfl) .b0 (hroom .b0),
    h.crossing_eq (by rw [← hu]; rfl) (by rw [← hu]; rfl) .b1 (hroom .b1), List.append_nil] at horder
  refine ⟨?_, hfollow.trans hsettled, fun c => ?_, horder⟩
  · rw [hframe, ← hu, h.frame]
    rfl
  · rw [← hu] at hports
    exact hports.port c

/-! ### The event of a held case's fallback (R155, R156) -/

/-- A held case falls back where its referral timer runs out, and where an answer leaves it UNDECIDED. -/
theorem exec_fallsBack (hrun : s.power = .running) (hslot : s.slot i = some r)
    (h : instr = .referralTimerExpiry i ∧ r.left = 0 ∧ bus = (fun _ => s.bus) ∨
      (∃ fare extra, instr = .referAnswer .fits r.id (some .undecided) fare extra ∧ fare ≤ 5000 ∧ extra ≤ 999) ∧
        r.id ≠ 0 ∧ (i = .s1 → ∀ r', s.slot .s0 = some r' → r'.id ≠ r.id) ∧ bus = s.answeredBus r.id) :
    ∃ B, exec instr s = .next (s.concluded B ((s.freed B i).fallback r.channel r.card r.cause r.block) bus) := by
  rcases h with ⟨rfl, hleft, rfl⟩ | ⟨⟨fare, extra, rfl, hfare, hextra⟩, hid, hfirst, rfl⟩
  · exact ⟨s.bus, exec_referralTimer hrun hslot hleft⟩
  · have hexec := exec_referAnswer hrun hid hfare hextra (slotWithId_some hslot hfirst) (v := .undecided) rfl
    have hfreed : s.beginRequest.setSlot i none = s.freed s.beginRequest.bus i := setSlot_none s s.beginRequest.bus i
    have hanswer : s.beginRequest.answerReferral i r .undecided fare extra =
        (s.freed s.beginRequest.bus i).fallback r.channel r.card r.cause r.block := by
      rw [← hfreed]
      rfl
    rw [hanswer] at hexec
    exact ⟨s.beginRequest.bus, hexec⟩

/-- A fallback REFUSE, or one ACCEPT that stage 9 refuses. -/
theorem fallback_refuses (h : s.FallbackIs .refuse r.cause ∧ code = fallbackRefusal r.cause ∨
      s.FallbackIs .accept r.cause ∧ s.RefusesAtCompletion r.channel code) (B : Bus) (i : Slot)
    (bus : VerdictCode → Bus) :
    s.Frees s (s.concluded B ((s.freed B i).fallback r.channel r.card r.cause r.block) bus) (bus code) i ∧
      s.Answers (s.concluded B ((s.freed B i).fallback r.channel r.card r.cause r.block) bus) r.channel r.card code := by
  rcases h with ⟨hrefuse, rfl⟩ | ⟨haccept, hrefuses⟩
  · rw [fallback_refused hrefuse]
    exact refuse_concludes ⟨rfl, rfl, rfl, fun _ => rfl⟩ rfl B i r.channel r.card _ bus
  · rw [fallback_accepted haccept]
    exact stageNine_concludes hrefuses B i r.card bus s.tables.allot s.clock _

/-- A granted case, field by field. -/
theorem Frees.granting_frame (h : s.Frees ((s.withAllot allot).granting c b card k n) t B i) : t = { s with
    bus := B
    claims := s.claims.set c { s.claimsOf c with
      provisional := (s.claimsOf c).provisional ++
        [⟨b, k.kind, n, 0, if k.kind = .staff then none else some card.id, k.fare, k.allot,
          some s.engine.nextTag, s.uptimeSecs, 0⟩] }
    tables := { s.tables with allot := allotGranted allot k.allot n }
    engine := { s.engine with
      slot0 := t.engine.slot0
      slot1 := t.engine.slot1
      nextTag := if s.engine.nextTag = 65535 then 1 else s.engine.nextTag + 1
      notes := s.engine.notes.set c (some ⟨s.engine.nextTag, k.charge⟩) }
    notices := t.notices
    arbiter := t.arbiter
    channels := t.channels
    ports := t.ports } := h.frame

end Sys2Proof.Machine.State

open Sys2Proof Sys2Proof.Machine Sys2Proof.Machine.State

/-- Settles O56: the two events that decide one case share its fallback, and the supervision timer's run-out is two
fallbacks in turn. -/
theorem referralsFallBack : Obligations.ReferralsFallBack := by
  intro s hrun
  refine ⟨fun i r instr bus hslot hinstr => ?_, fun htimer hheard => ?_⟩
  · obtain ⟨B, hexec⟩ := exec_fallsBack hrun hslot hinstr
    refine ⟨fun code hcode => ?_, fun b haccept hready hfull => ?_, fun b kind n code hcase hready hcount hroom hheld => ?_⟩
    · have hcase : s.FallbackIs .refuse r.cause ∧ code = fallbackRefusal r.cause ∨
          s.FallbackIs .accept r.cause ∧ s.RefusesAtCompletion r.channel code := by
        rcases hcode with ⟨hcause, hf, rfl⟩ | ⟨⟨f, p, hcause⟩, hf, rfl⟩ | ⟨⟨x, y, hcause⟩, hf, rfl⟩ | h
        · rw [hcause]
          exact .inl ⟨hf, rfl⟩
        · rw [hcause]
          exact .inl ⟨hf, rfl⟩
        · rw [hcause]
          exact .inl ⟨hf, rfl⟩
        · exact .inr h
      obtain ⟨hfrees, hanswers⟩ := fallback_refuses hcase B i bus
      exact ⟨_, hexec, hfrees.frame, hfrees.follow, hfrees.slots, hanswers⟩
    · have hroom : 3 ≤ (s.claimsOf r.channel).count ∨ ∀ n, ¬s.Grants b (fallbackTerms r.block r.cause).seats
          (fallbackTerms r.block r.cause).partialOk n :=
        hfull.imp_right fun ⟨hnone, hblock⟩ => not_grants hnone (fallbackTerms_seats hblock)
      obtain ⟨hfrees, hanswers⟩ := full_concludes hready (fallbackTerms_lastOnly r.block r.cause).writes hroom B i r.card
        bus s.tables.allot s.clock
      rw [← fallback_accepted haccept] at hfrees hanswers
      rw [fallbackTerms_charge] at hfrees
      exact ⟨_, hexec, hfrees.frame, hfrees.follow, hfrees.slots, hanswers⟩
    · have hcauses : s.FallbackIs .accept r.cause ∧ (fallbackTerms r.block r.cause).kind = kind ∧
          (fallbackTerms r.block r.cause).code = code ∧ kind ≠ .staff ∧
          s.Grants b (fallbackTerms r.block r.cause).seats (fallbackTerms r.block r.cause).partialOk n := by
        rcases hcase with ⟨hcause, hf, rfl, rfl, rfl⟩ | ⟨⟨f, p, hcause⟩, hf, rfl, rfl, rfl⟩ |
          ⟨⟨x, y, hcause⟩, hf, rfl, rfl, rfl⟩
        · rw [hcause]
          exact ⟨hf, rfl, rfl, nofun, .inl ⟨hroom, rfl⟩⟩
        · rw [hcause]
          exact ⟨hf, rfl, rfl, nofun, .inl ⟨hroom, rfl⟩⟩
        · rw [hcause]
          exact ⟨hf, rfl, rfl, nofun, grants_min hroom⟩
      obtain ⟨haccept, hkind, hcode, hstaff, hgrants⟩ := hcauses
      obtain ⟨hfrees, hanswers, horder⟩ := grant_concludes hready hcount hgrants (fallbackTerms_lastOnly r.block r.cause)
        B i r.card bus s.tables.allot
      obtain ⟨hfare, hallot⟩ := fallbackTerms_free r.block r.cause
      rw [← fallback_accepted haccept] at hfrees hanswers horder
      generalize s.concluded B ((s.freed B i).fallback r.channel r.card r.cause r.block) bus = t at *
      have hframe := hfrees.granting_frame
      rw [hkind, hcode, hfare, hallot, fallbackTerms_charge, if_neg hstaff] at hframe
      rw [hcode, hfare] at hanswers
      rw [hallot] at horder
      exact ⟨t, hexec, hframe, hfrees.follow, hfrees.slots, hanswers, queuesInOrder_prefix horder⟩
  · obtain ⟨u, v, hfirst, hsecond, hruns⟩ := supervisionRunsOut_eq htimer hheard
    have hexec : exec .supervisionTimerExpiry s = .next s.supervisionRunsOut :=
      congrArg Host.Outcome.next (whenRunning_running hrun _)
    have hlapses := settle_lapses (hfirst.resolves.trans hsecond.resolves)
    rw [hruns] at hexec
    generalize settle s (v.dressed s.silentBus s.lapsedNotices none none) [] = t at *
    refine ⟨t, u, v, hexec, hfirst, hsecond, hlapses.frame, hlapses.follow,
      fun c => ⟨(hlapses.port c).awaited, (hlapses.port c).outstanding, (hlapses.port c).sending⟩,
      fun hnone0 hnone1 => ?_, fun j r hj => ?_, hlapses.notices⟩
    · rw [hnone0] at hfirst
      rw [hnone1] at hsecond
      obtain rfl : u = s.unslotted := hfirst
      obtain rfl : v = s.unslotted := hsecond
      rw [hlapses.frame]
      have hengine : s.unslotted.engine = s.engine := congrArg State.engine (unslotted_self hnone0 hnone1)
      exact ⟨rfl, hengine⟩
    · have htaken : (v.port r.channel).outstanding = none := by
        cases j with
        | s0 =>
          rw [hj] at hfirst
          rcases hsecond.resolves.outstanding r.channel with e | e
          · rw [e]
            exact hfirst.elim fun _ hf => hf.taken
          · exact e
        | s1 =>
          rw [hj] at hsecond
          exact hsecond.elim fun _ hf => hf.taken
      rcases (hlapses.port r.channel).outstanding with e | e
      · rw [e, htaken]
      · exact e

end

section
/-! The raising of a referral at a completion, and the answers of REFER_ANSWER. -/

namespace Sys2Proof.Machine.State

variable {s t : State} {c : Chan} {b : Berth} {card : Card} {cause : Cause} {block : Nat} {m : Bool} {i : Slot}

/-! ### A referral is raised (R151) -/

theorem freeSlot_eq (hi : s.slot i = none) (hfirst : i = .s1 → s.slot .s0 ≠ none) : s.freeSlot = some i := by
  cases i with
  | s0 => exact if_pos (Option.isNone_iff_eq_none.mpr hi)
  | s1 =>
    have h0 : ¬s.engine.slot0.isNone = true := fun h => hfirst rfl (Option.isNone_iff_eq_none.mp h)
    exact (if_neg h0).trans (if_pos (Option.isNone_iff_eq_none.mpr hi))

theorem referCase_raised (hi : s.slot i = none) (hfirst : i = .s1 → s.slot .s0 ≠ none) (hb : s.berthOf c = some b)
    (hheard : s.bus.silent = false) :
    s.referCase c card cause block = (s.raise i c b card cause block, []) := by
  unfold referCase
  rw [freeSlot_eq hi hfirst, hb]
  dsimp only
  rw [hheard]
  rfl

theorem raise_frame (s : State) (i : Slot) (c : Chan) (b : Berth) (card : Card) (cause : Cause) (block : Nat) :
    s.raise i c b card cause block = { s with engine := { s.engine with
      slot0 := (s.raise i c b card cause block).engine.slot0
      slot1 := (s.raise i c b card cause block).engine.slot1
      slot1Older := decide (i = .s0) && (s.slot .s1).isSome
      nextReferral := if s.engine.nextReferral = 255 then 1 else s.engine.nextReferral + 1 } } := by
  cases i <;> rfl

theorem raise_slot (s : State) (i j : Slot) (c : Chan) (b : Berth) (card : Card) (cause : Cause) (block : Nat) :
    (s.raise i c b card cause block).slot j = if j = i then
      some ⟨s.engine.nextReferral, c, b, card, cause, block, false, s.cfg.referralTimeout⟩ else s.slot j :=
  slot_setSlot _ i j _

/-- A completion whose card the stages refer is a referral of it (Table 6-2). -/
theorem completeStages_refers {w : Work} (h : s.Decides w.card w.snap (s.lineOf c) (.refer cause) m) :
    s.freeEngine.completeStages c w = (s.freeEngine.resolvedIf w.card.id m).referCase c w.card cause
      (s.blockOf w.card w.snap) := by
  have hsame : s.freeEngine.decideCard w.card w.snap (s.freeEngine.lineOf c) =
      s.decideCard w.card w.snap (s.lineOf c) := rfl
  unfold completeStages
  rw [hsame, decideCard_of_decides h]
  cases m <;> rfl

/-- What the event of a raised referral leaves of the state that holds it. -/
structure Raises (s u t : State) : Prop where
  frame : t = { u with
    engine := { u.engine with work := t.engine.work }
    notices := t.notices
    arbiter := t.arbiter
    channels := t.channels
    ports := t.ports }
  gates : s.GatesKept t
  held : ∀ c, s.arbiter.places.get c = none → (t.port c).outstanding = (s.port c).outstanding

theorem settle_raises {u : State} (hchannels : u.channels = s.channels) (hports : u.ports = s.ports)
    (harbiter : u.arbiter = s.arbiter) : s.Raises u (settle s u []).select where
  frame := by
    obtain ⟨_, _, _, _, _, hframe⟩ := settleSelect_frame s u []
    rw [hframe]
  gates := (GatesKept.same hchannels hports).trans (settleSelect_gates s u [])
  held c hplace := by
    rw [select_port]
    exact ((PortsFollow.same hports harbiter).trans (settle_portsFollow s u [])).held c hplace

/-- A raised referral, field by field. -/
theorem Raises.raise_frame {j : List JourneyEntry}
    (h : s.Raises ((s.freeEngine.setJourney j).raise i c b card cause block) t) : t = { s with
      engine := { s.engine with
        work := t.engine.work
        journey := t.engine.journey
        slot0 := t.engine.slot0
        slot1 := t.engine.slot1
        slot1Older := decide (i = .s0) && (s.slot .s1).isSome
        nextReferral := if s.engine.nextReferral = 255 then 1 else s.engine.nextReferral + 1 }
      notices := t.notices
      arbiter := t.arbiter
      channels := t.channels
      ports := t.ports } ∧ t.engine.journey = j ∧
    ∀ d, t.slot d = if d = i then
      some ⟨s.engine.nextReferral, c, b, card, cause, block, false, s.cfg.referralTimeout⟩ else s.slot d := by
  have hraised := State.raise_frame (s.freeEngine.setJourney j) i c b card cause block
  have hslot := fun d => raise_slot (s.freeEngine.setJourney j) i d c b card cause block
  have hframe := h.frame
  generalize (s.freeEngine.setJourney j).raise i c b card cause block = u at *
  refine ⟨?_, ?_, fun d => ?_⟩
  · rw [hframe, hraised]
    rfl
  · rw [hframe, hraised]
    rfl
  · have hd : t.slot d = u.slot d := by
      rw [hframe]
      cases d <;> rfl
    rw [hd, hslot]
    cases d <;> rfl

/-- A card that the stages refer, with the host heard and a slot free, is held in that slot. -/
theorem completion_raises {w : Work} (hrun : s.power = .running) (hw : s.engine.work = some w)
    (hc : w.requester = .channel c) (hpresent : w.withdrawn = false) (hmark : w.mark = .none)
    (hdecides : s.Decides w.card w.snap (s.lineOf c) (.refer cause) m) (hb : s.berthOf c = some b)
    (hheard : s.bus.silent = false) (hi : s.slot i = none) (hfirst : i = .s1 → s.slot .s0 ≠ none) :
    ∃ j t, exec .validationCompletion s = .next t ∧
      s.Raises ((s.freeEngine.setJourney j).raise i c b w.card cause (s.blockOf w.card w.snap)) t ∧
      (s.resolvedIf w.card.id m).engine.journey = j := by
  have hstages := completeStages_refers hdecides
  have hsame : (s.resolvedIf w.card.id m).engine.journey = (s.freeEngine.resolvedIf w.card.id m).engine.journey := by
    cases m <;> rfl
  obtain ⟨j, hj⟩ := resolvedIf_frame s.freeEngine w.card.id m
  have hi' : (s.freeEngine.setJourney j).slot i = none := by cases i <;> exact hi
  rw [hj] at hstages hsame
  rw [referCase_raised (s := s.freeEngine.setJourney j) hi' hfirst hb hheard] at hstages
  have hexec := exec_completion hrun hw hc hpresent hmark hstages
  refine ⟨j, _, hexec, settle_raises ?_ ?_ ?_, hsame⟩
  · rw [State.raise_frame]; rfl
  · rw [State.raise_frame]; rfl
  · rw [State.raise_frame]; rfl

end Sys2Proof.Machine.State
end

section
/-! The answers of REFER_ANSWER: refused, accepted, and out of their fields. -/

namespace Sys2Proof.Machine

namespace State

variable {s t : State} {i : Slot} {r : Referral} {c : Chan} {b : Berth} {fare extra n : Nat} {allot : List Allotment}
  {charge : Charge} {kind : ClaimKind} {code : VerdictCode} {token : Option CardId}

/-- An accepted answer's fields suit its cause, and the allotment table is the one it leaves: extended where the
allotment was spent (R153, R154). -/
def Suits (s : State) (r : Referral) (fare extra : Nat) (allot : List Allotment) : Prop :=
  (r.cause = .unknownProduct ∧ fare = 0 ∨ ∃ f p, r.cause = .account f p) ∧ extra = 0 ∧ allot = s.tables.allot ∨
  (∃ x y a, r.cause = .allotmentSpent x y ∧ fare = 0 ∧ 1 ≤ extra ∧ s.allotOf r.card.id = some a ∧
    a.total + extra ≤ 9999) ∧
    allot = s.tables.allot.map fun a => if a.token = r.card.id then
      { a with total := a.total + extra, remaining := a.remaining + extra } else a

/-- The terms that an accepted answer takes to stage 9 (Table 9-1). -/
def answeredTerms (s : State) (r : Referral) (fare : Nat) (allot : List Allotment) : Terms :=
  answerTerms ((s.withAllot allot).allotOf r.card.id) fare r.block r.cause

theorem answerTerms_lastOnly (a : Option Allotment) (fare block : Nat) (cause : Cause) :
    (answerTerms a fare block cause).LastOnly := by
  cases cause with
  | allotmentSpent x y => cases a <;> exact ⟨rfl, rfl, rfl, rfl⟩
  | _ => exact ⟨rfl, rfl, rfl, rfl⟩

theorem answerTerms_charge {a : Option Allotment} {block : Nat} {cause : Cause}
    (h : (∃ f p, cause = .account f p) ∧ 0 < fare ∧ charge = .fare ∨
      ((∃ f p, cause = .account f p) → fare = 0) ∧ charge = .none) : (answerTerms a fare block cause).charge = charge := by
  rcases h with ⟨⟨f, p, rfl⟩, hfare, rfl⟩ | ⟨hfree, rfl⟩
  · exact if_pos hfare
  · cases cause with
    | unknownProduct => rfl
    | account f p => exact if_neg (Nat.not_lt.mpr (Nat.le_of_eq (hfree ⟨f, p, rfl⟩)))
    | allotmentSpent x y => cases a <;> rfl

/-! ### The fields of an accepted answer (R153, R154) -/

theorem Suits.fits (h : s.Suits r fare extra allot) : s.answerMisfits r .accept fare extra = false := by
  unfold answerMisfits
  rcases h with ⟨⟨hcause, hfare⟩ | ⟨f, p, hcause⟩, hextra, -⟩ | ⟨⟨x, y, a, hcause, hfare, hextra, ha, htotal⟩, -⟩
  · rw [hcause]
    simp [answerFits, hfare, hextra]
  · rw [hcause]
    simp [answerFits, hextra]
  · rw [hcause]
    simp [answerFits, hfare, hextra, ha, Config.maxAllotTotal, htotal]

theorem answerMisfits_of (h : r.cause = .unknownProduct ∧ (fare ≠ 0 ∨ extra ≠ 0) ∨
      (∃ f p, r.cause = .account f p) ∧ extra ≠ 0 ∨
      (∃ x y, r.cause = .allotmentSpent x y) ∧
        (fare ≠ 0 ∨ extra = 0 ∨ ∃ a, s.allotOf r.card.id = some a ∧ 9999 < a.total + extra)) :
    s.answerMisfits r .accept fare extra = true := by
  unfold answerMisfits
  rcases h with ⟨hcause, hfields⟩ | ⟨⟨f, p, hcause⟩, hfields⟩ | ⟨⟨x, y, hcause⟩, hfields⟩
  · rw [hcause]
    simpa [answerFits, imp_iff_not_or] using hfields
  · rw [hcause]
    simpa [answerFits] using hfields
  · rw [hcause]
    rcases hfields with hfare | hextra | ⟨a, ha, htotal⟩
    · simp [answerFits, hfare]
    · simp [answerFits, hextra]
    · simp [answerFits, ha, Config.maxAllotTotal, Nat.not_le.mpr htotal]

theorem Suits.answerReferral_eq (h : s.Suits r fare extra allot) (i : Slot) :
    s.beginRequest.answerReferral i r .accept fare extra =
      ((s.withAllot allot).freed s.beginRequest.bus i).acceptCase r.channel r.card s.clock
        (s.answeredTerms r fare allot) := by
  have hfreed : s.beginRequest.setSlot i none = s.freed s.beginRequest.bus i := setSlot_none s s.beginRequest.bus i
  unfold answerReferral
  dsimp only
  rw [hfreed]
  rcases h with ⟨hcause, -, rfl⟩ | ⟨⟨x, y, a, hcause, -⟩, rfl⟩
  · rcases hcause with ⟨hcause, -⟩ | ⟨f, p, hcause⟩
    · unfold answeredTerms
      rw [hcause]
      rfl
    · unfold answeredTerms
      rw [hcause]
      rfl
  · unfold answeredTerms
    rw [hcause]
    rfl

theorem exec_accepts (hrun : s.power = .running) (hslot : s.slot i = some r) (hid : r.id ≠ 0) (hfare : fare ≤ 5000)
    (hextra : extra ≤ 999) (hfirst : i = .s1 → ∀ r', s.slot .s0 = some r' → r'.id ≠ r.id)
    (h : s.Suits r fare extra allot) : exec (.referAnswer .fits r.id (some .accept) fare extra) s =
      .next (s.concluded s.beginRequest.bus (((s.withAllot allot).freed s.beginRequest.bus i).acceptCase r.channel
        r.card s.clock (s.answeredTerms r fare allot)) (s.answeredBus r.id)) := by
  rw [exec_referAnswer hrun hid hfare hextra (slotWithId_some hslot hfirst) h.fits, h.answerReferral_eq]

/-! ### The allotment that an answer extends (R160) -/

theorem allotOf_token {id : CardId} {a : Allotment} (h : s.allotOf id = some a) : a.token = id :=
  of_decide_eq_true (List.find?_some (p := fun a : Allotment => decide (a.token = id)) h)

theorem withAllot_allotOf (s : State) (id : CardId) (extra : Nat) :
    (s.withAllot (s.tables.allot.map fun a => if a.token = id then
      { a with total := a.total + extra, remaining := a.remaining + extra } else a)).allotOf id =
      (s.allotOf id).map (Allotment.extend extra) :=
  find?_token_map (f := Allotment.extend extra) (fun _ => rfl) id s.tables.allot

theorem Suits.seats (h : s.Suits r fare extra allot) (hblock : (∃ x y, r.cause = .allotmentSpent x y) → 1 ≤ r.block) :
    1 ≤ (s.answeredTerms r fare allot).seats := by
  unfold answeredTerms
  rcases h with ⟨⟨hcause, -⟩ | ⟨f, p, hcause⟩, -⟩ | ⟨⟨x, y, a, hcause, -, hextra, ha, -⟩, rfl⟩
  · rw [hcause]
    exact Nat.le_refl 1
  · rw [hcause]
    exact Nat.le_refl 1
  · rw [withAllot_allotOf, ha, hcause]
    exact Nat.le_min.mpr ⟨Nat.le_trans hextra (Nat.le_add_left _ _), hblock ⟨x, y, hcause⟩⟩

/-- What an accepted answer is granted, by its cause (Table 9-1). -/
def AnswerGrants (s : State) (r : Referral) (b : Berth) (fare extra : Nat) (kind : ClaimKind) (n : Nat)
    (code : VerdictCode) (charge : Charge) (token : Option CardId) : Prop :=
  r.cause = .unknownProduct ∧ kind = .free ∧ n = 1 ∧ code = .acceptFree ∧ charge = .none ∧ token = none ∨
  (∃ f p, r.cause = .account f p) ∧ kind = .account ∧ n = 1 ∧ code = .accept ∧
    charge = (if fare = 0 then .none else .fare) ∧ token = none ∨
  (∃ x y a, r.cause = .allotmentSpent x y ∧ s.allotOf r.card.id = some a ∧
    n = min (min (a.remaining + extra) r.block) (s.headroom b)) ∧
    kind = .allotment ∧ code = .acceptFree ∧ charge = .none ∧ token = some r.card.id

/-- The ALLOTMENT_SPENT notice of an answer that takes the last seat of the allotment it extends (R160). -/
def answerSpent (s : State) (r : Referral) (extra n : Nat) (token : Option CardId) : List Notice :=
  match token.bind s.allotOf with
  | none => []
  | some a => if a.remaining + extra ≤ n then
      [.allotmentSpent a.token a.line (a.total + extra) (a.held + n) a.passed r.channel] else []

/-- The terms of an answer are those that Table 9-1 asks for. -/
structure AnswerTerms (s : State) (r : Referral) (b : Berth) (fare extra : Nat) (allot : List Allotment)
    (kind : ClaimKind) (n : Nat) (code : VerdictCode) (charge : Charge) (token : Option CardId) (k : Terms) : Prop where
  hasKind : k.kind = kind
  hasCode : k.code = code
  hasFare : k.fare = fare
  hasCharge : k.charge = charge
  hasToken : k.allot = token
  noStaff : kind ≠ ClaimKind.staff
  grants : s.Grants b k.seats k.partialOk n
  spent : (s.withAllot allot).allotmentTaken r.channel token n = s.answerSpent r extra n token

theorem Suits.unknown (h : s.Suits r fare extra allot) (hcause : r.cause = .unknownProduct) : fare = 0 := by
  rcases h with ⟨⟨-, hfare⟩ | ⟨f, p, hother⟩, -⟩ | ⟨⟨x, y, a, hother, -⟩, -⟩
  · exact hfare
  · cases hcause.symm.trans hother
  · cases hcause.symm.trans hother

theorem Suits.extends {x y : Nat} (h : s.Suits r fare extra allot) (hcause : r.cause = .allotmentSpent x y) :
    fare = 0 ∧ (s.withAllot allot).allotOf r.card.id = (s.allotOf r.card.id).map (Allotment.extend extra) := by
  rcases h with ⟨⟨hother, -⟩ | ⟨f, p, hother⟩, -⟩ | ⟨⟨-, -, -, -, hfare, -⟩, rfl⟩
  · cases hcause.symm.trans hother
  · cases hcause.symm.trans hother
  · exact ⟨hfare, withAllot_allotOf s r.card.id extra⟩

theorem Suits.terms (h : s.Suits r fare extra allot) (hroom : 1 ≤ s.headroom b)
    (hcase : s.AnswerGrants r b fare extra kind n code charge token) :
    s.AnswerTerms r b fare extra allot kind n code charge token (s.answeredTerms r fare allot) := by
  unfold answeredTerms
  rcases hcase with ⟨hcause, rfl, rfl, rfl, rfl, rfl⟩ | ⟨⟨f, p, hcause⟩, rfl, rfl, rfl, rfl, rfl⟩ |
    ⟨⟨x, y, a, hcause, ha, rfl⟩, rfl, rfl, rfl, rfl⟩
  · have hfare := h.unknown hcause
    rw [hcause]
    exact ⟨rfl, rfl, hfare.symm, rfl, rfl, nofun, .inl ⟨hroom, rfl⟩, rfl⟩
  · have hcharge : (if 0 < fare then Charge.fare else .none) = if fare = 0 then .none else .fare := by
      cases fare <;> rfl
    rw [hcause]
    exact ⟨rfl, rfl, rfl, hcharge, rfl, nofun, .inl ⟨hroom, rfl⟩, rfl⟩
  · obtain ⟨hfare, hentry⟩ := Suits.extends h hcause
    have hspent : ∀ n, (s.withAllot allot).allotmentTaken r.channel (some r.card.id) n =
        s.answerSpent r extra n (some r.card.id) := by
      intro n
      unfold allotmentTaken answerSpent
      rw [Option.bind_some, Option.bind_some, hentry, ha]
      rfl
    have htoken : a.token = r.card.id := allotOf_token ha
    rw [hentry, ha, hcause]
    exact ⟨rfl, rfl, hfare.symm, rfl, congrArg some htoken, nofun, grants_min hroom, hspent _⟩

end State

end Sys2Proof.Machine

open Sys2Proof Sys2Proof.Machine Sys2Proof.Machine.State

/-- Settles O55: a raised referral is held in the first empty slot, and an answer is refused by its fields, or resolves
the case as its terms say. -/
theorem referralsAreRaisedAndAnswered : Obligations.ReferralsAreRaisedAndAnswered := by
  intro s hrun
  refine ⟨fun w c b cause m i hw hc hpresent hmark hdecides hb hheard hi hfirst => ?_, fun id v fare extra h => ?_,
    fun id v fare extra hid hfare hextra hnone => ?_, fun i r fare hslot hid hfare hfirst =>
    ⟨fun extra hextra => ?_, fun extra hextra hmisfit => ?_, fun extra allot hextra hsuits =>
      ⟨fun code hrefuses => ?_, fun b charge hready hfull hcharge => ?_,
        fun b kind token n code charge hready hcount hroom hheld hcase => ?_⟩⟩⟩
  · obtain ⟨j, t, hexec, hraises, hj⟩ := completion_raises hrun hw hc hpresent hmark hdecides hb hheard hi hfirst
    obtain ⟨hframe, hjourney, hslots⟩ := hraises.raise_frame
    refine ⟨t, hexec, hframe, hraises.gates, .of_resolvedIf (hjourney.trans hj.symm), fun block hblock d => ?_,
      hraises.held c⟩
    rw [hslots, hblock.blockOf_eq]
  · exact congrArg Host.Outcome.next (request_refused hrun (actReferAnswer_badField h))
  · exact congrArg Host.Outcome.next (request_refused hrun (actReferAnswer_late (s := s.beginRequest) hid hfare hextra hnone))
  · have hexec := exec_referAnswer hrun hid hfare hextra (slotWithId_some hslot hfirst) (v := .refuse) rfl
    have hfreed : s.beginRequest.setSlot i none = s.freed s.beginRequest.bus i := setSlot_none s s.beginRequest.bus i
    have hanswer : s.beginRequest.answerReferral i r .refuse fare extra =
        (s.freed s.beginRequest.bus i).refuseCase r.channel r.card .refusedOnline := by
      rw [← hfreed]
      rfl
    rw [hanswer] at hexec
    have hkeeps : s.Keeps s := ⟨rfl, rfl, rfl, fun _ => rfl⟩
    obtain ⟨hfrees, hanswers⟩ := refuse_concludes hkeeps rfl s.beginRequest.bus i r.channel r.card .refusedOnline
      (s.answeredBus r.id)
    exact ⟨_, hexec, hfrees.frame, hfrees.follow, hfrees.slots, hanswers⟩
  · exact congrArg Host.Outcome.next (request_refused hrun (actReferAnswer_misfit (s := s.beginRequest) hid hfare hextra
      (slotWithId_some (s := s) hslot hfirst) (answerMisfits_of (s := s) hmisfit)))
  · have hexec := exec_accepts hrun hslot hid hfare hextra hfirst hsuits
    obtain ⟨hfrees, hanswers⟩ := stageNine_concludes hrefuses s.beginRequest.bus i r.card (s.answeredBus r.id) allot
      s.clock (s.answeredTerms r fare allot)
    exact ⟨_, hexec, hfrees.frame, hfrees.follow, hfrees.slots, hanswers⟩
  · have hexec := exec_accepts hrun hslot hid hfare hextra hfirst hsuits
    have hlast : (s.answeredTerms r fare allot).LastOnly := answerTerms_lastOnly _ fare r.block r.cause
    have hroom : 3 ≤ (s.claimsOf r.channel).count ∨ ∀ n, ¬s.Grants b (s.answeredTerms r fare allot).seats
        (s.answeredTerms r fare allot).partialOk n :=
      hfull.imp_right fun ⟨hnone, hblock⟩ => not_grants hnone (Suits.seats hsuits hblock)
    obtain ⟨hfrees, hanswers⟩ := full_concludes hready hlast.writes hroom s.beginRequest.bus i r.card
      (s.answeredBus r.id) allot s.clock
    have hnoted : (s.answeredTerms r fare allot).charge = charge := answerTerms_charge hcharge
    rw [hnoted] at hfrees
    exact ⟨_, hexec, hfrees.frame, hfrees.follow, hfrees.slots, hanswers⟩
  · have hexec := exec_accepts hrun hslot hid hfare hextra hfirst hsuits
    have hlast : (s.answeredTerms r fare allot).LastOnly := answerTerms_lastOnly _ fare r.block r.cause
    have hterms := Suits.terms hsuits hroom hcase
    obtain ⟨hfrees, hanswers, horder⟩ := grant_concludes hready hcount hterms.grants hlast s.beginRequest.bus i r.card
      (s.answeredBus r.id) allot
    generalize s.concluded s.beginRequest.bus _ (s.answeredBus r.id) = t at *
    have hframe := hfrees.granting_frame
    rw [hterms.hasKind, hterms.hasCode, hterms.hasFare, hterms.hasCharge, hterms.hasToken, if_neg hterms.noStaff] at hframe
    rw [hterms.hasCode, hterms.hasFare] at hanswers
    rw [hterms.hasToken, hterms.spent] at horder
    exact ⟨t, hexec, hframe, hfrees.follow, hfrees.slots, hanswers, horder⟩

end

section
/-! The run-out of a pass window, which lapses the head claim. -/

namespace Sys2Proof.Machine

/-- A claim with no entry in the list changes none by its lapse. -/
theorem journeyLapsed_of_none {j : List JourneyEntry} {k : Claim} (h : ∀ e ∈ j, ¬k.IsEntry e) :
    journeyLapsed j k = j := by
  unfold journeyLapsed
  split
  · rfl
  · next id hid =>
    exact modifyLast_of_none _ _ _ fun e he => Bool.eq_false_iff.mpr fun hof => h e he ((k.isEntry_iff hid e).mpr hof)

/-- The newest entry of the claim is the one that its lapse changes (Table 6-8, assumption 19). -/
theorem journeyLapsed_newest {xs ys : List JourneyEntry} {e : JourneyEntry} {k : Claim} (he : k.IsEntry e)
    (hys : ∀ y ∈ ys, ¬k.IsEntry y) : journeyLapsed (xs ++ e :: ys) k =
      xs ++ { e with outcome := if e.outcome ≠ .admitted then e.outcome
        else if 0 < k.passed then .boarded
        else if e.charge ≠ .none then .paidNotPassed
        else .resolved } :: ys := by
  unfold journeyLapsed
  rw [he.card]
  exact modifyLast_append _ _ _ _ _ ((k.isEntry_iff he.card e).mp he) fun y hy =>
    Bool.eq_false_iff.mpr fun hof => hys y hy ((k.isEntry_iff he.card y).mpr hof)

namespace State

variable {s : State} {c : Chan} {k : Claim} {ks : List Claim}

/-- The state with the head claim of a channel lapsed and the next live claim head (R42, R43). -/
def headLapsed (s : State) (c : Chan) (k : Claim) (ks : List Claim) : State :=
  (s.setClaims c { s.claimsOf c with live := promote (s.windowOf c) ks }).withLists
    (allotReturned s.tables.allot k) (journeyLapsed s.engine.journey k)

theorem lapseHead_eq (hlive : (s.claimsOf c).live = k :: ks) : s.lapseHead c = s.headLapsed c k ks := by
  unfold lapseHead
  rw [hlive]
  exact lapseEffects_eq _ k

theorem exec_passWindowExpiry (hrun : s.power = .running) (hstate : (s.chan c).state ≠ .suspended)
    (hlive : (s.claimsOf c).live = k :: ks) (hwindow : k.window = 0) :
    exec (.passWindowExpiry c) s = .next (settle s (s.headLapsed c k ks) []).select := by
  have hout : ranOut (s.runningWindow c) = true := by
    unfold runningWindow
    rw [hlive]
    dsimp only
    rw [if_neg hstate, hwindow]
    rfl
  refine congrArg Host.Outcome.next ((whenRunning_running hrun _).trans ?_)
  unfold windowRunsOut
  rw [if_pos hout, lapseHead_eq hlive]

end State

end Sys2Proof.Machine

open Sys2Proof Sys2Proof.Machine Sys2Proof.Machine.State

/-- Settles O40: the head's lapse is one change of the claims, the allotments and the journey list, and the event's
end moves none of them. -/
theorem passWindowLapsesTheHead : Obligations.PassWindowLapsesTheHead := by
  intro s c k ks hrun hstate hlive hwindow
  have hgates := settleSelect_gates s (s.headLapsed c k ks) []
  obtain ⟨q, a, ch, p, w, hframe⟩ := settleSelect_frame s (s.headLapsed c k ks) []
  have hexec := exec_passWindowExpiry hrun hstate hlive hwindow
  generalize (settle s (s.headLapsed c k ks) []).select = t at *
  have hjourney : t.engine.journey = journeyLapsed s.engine.journey k := by
    rw [hframe]
    rfl
  refine ⟨t, hexec, ?_, ⟨hgates.gate, hgates.line⟩, fun hnone => ?_, fun xs e ys hsplit he hys => ?_⟩
  · rw [hframe]
    rfl
  · rw [hjourney, journeyLapsed_of_none hnone]
  · rw [hjourney, hsplit, journeyLapsed_newest he hys]
end

section
/-! Claims kept sound. What a part of an event keeps of the claims, when it grants no seat, is one relation; the
grants, the changes of settings and the start-up keep the three conditions on their own. -/

namespace Sys2Proof.Machine

open Safety

/-- The fields of the state that the conditions on claims speak of. -/
structure Seating where
  claims : PerChan ChannelClaims
  calls : PerBerth Call
  berthOf : PerChan (Option Berth)
  allot : List Allotment
  work : Option Work
  slot0 : Option Referral
  slot1 : Option Referral

/-- The seating of a state. -/
def State.seating (s : State) : Seating where
  claims := s.claims
  calls := s.calls
  berthOf := s.cfg.berthOf
  allot := s.tables.allot
  work := s.engine.work
  slot0 := s.engine.slot0
  slot1 := s.engine.slot1

/-- Every block size is 1 to 9 seats: the part of `Safety.ClaimsUnpassed` that is not about claims. -/
structure BlocksInRange (s : State) : Prop where
  allot : ∀ a ∈ s.tables.allot, within a.block 1 9 = true
  work : ∀ w, s.engine.work = some w → ∀ a ∈ w.snap.allot, within a.block 1 9 = true
  slot : ∀ i r, s.slot i = some r → within r.block 1 9 = true

theorem claimsUnpassed_iff {s : State} :
    ClaimsUnpassed s ↔ (∀ c, ∀ k ∈ (s.claimsOf c).every, k.passed < k.granted) ∧ BlocksInRange s :=
  ⟨fun ⟨hclaims, hallot, hwork, hslot⟩ => ⟨hclaims, hallot, hwork, hslot⟩,
    fun ⟨hclaims, hblocks⟩ => ⟨hclaims, hblocks.allot, hblocks.work, hblocks.slot⟩⟩

/-- A claim follows another: on the same call, and with a seat to pass where that had one. -/
structure Claim.Follows (x k : Claim) : Prop where
  berth : k.berth = x.berth
  seat : x.passed < x.granted → k.passed < k.granted

theorem Claim.Follows.same (k : Claim) : k.Follows k := ⟨rfl, id⟩

theorem Claim.Follows.trans {x y z : Claim} (h : x.Follows y) (g : y.Follows z) : x.Follows z :=
  ⟨g.berth.trans h.berth, fun hx => g.seat (h.seat hx)⟩

/-- Each claim of a list follows one of another list. -/
def ClaimsFollow (xs ks : List Claim) : Prop := ∀ k ∈ ks, ∃ x ∈ xs, x.Follows k

theorem ClaimsFollow.of_subset {xs ks : List Claim} (h : ks ⊆ xs) : ClaimsFollow xs ks :=
  fun k hk => ⟨k, h hk, .same k⟩

theorem ClaimsFollow.trans {xs ys zs : List Claim} (h : ClaimsFollow xs ys) (g : ClaimsFollow ys zs) :
    ClaimsFollow xs zs := by
  intro z hz
  obtain ⟨y, hy, hyz⟩ := g z hz
  obtain ⟨x, hx, hxy⟩ := h y hy
  exact ⟨x, hx, hxy.trans hyz⟩

/-- What a change that grants no seat and assigns no channel keeps: the claims left follow those before, on calls that
board as before, and the block sizes stay in range. -/
structure SeatsKept (s t : State) : Prop where
  count : ∀ c, (t.claimsOf c).count ≤ (s.claimsOf c).count
  claim : ∀ c, ClaimsFollow (s.claimsOf c).every (t.claimsOf c).every
  boarding : ∀ c, ∀ k ∈ (t.claimsOf c).every,
    (s.call k.berth).state.isBoarding = true → (t.call k.berth).state.isBoarding = true
  berth : ∀ c, t.berthOf c = s.berthOf c
  blocks : BlocksInRange s → BlocksInRange t

/-- The three conditions on claims, each kept on its own. -/
structure ClaimsKept (s t : State) : Prop where
  limited : ClaimsLimited s → ClaimsLimited t
  unpassed : ClaimsUnpassed s → ClaimsUnpassed t
  onBoarding : ClaimsOnBoarding s → ClaimsOnBoarding t

theorem ClaimsKept.same (s : State) : ClaimsKept s s := ⟨id, id, id⟩

theorem ClaimsKept.trans {s t u : State} (h : ClaimsKept s t) (g : ClaimsKept t u) : ClaimsKept s u :=
  ⟨g.limited ∘ h.limited, g.unpassed ∘ h.unpassed, g.onBoarding ∘ h.onBoarding⟩

theorem SeatsKept.kept {s t : State} (h : SeatsKept s t) : ClaimsKept s t where
  limited hs c := (h.count c).trans (hs c)
  unpassed hs := by
    obtain ⟨hclaims, hblocks⟩ := claimsUnpassed_iff.mp hs
    refine claimsUnpassed_iff.mpr ⟨fun c k hk => ?_, h.blocks hblocks⟩
    obtain ⟨x, hx, hfollows⟩ := h.claim c k hk
    exact hfollows.seat (hclaims c x hx)
  onBoarding hs c k hk := by
    obtain ⟨x, hx, hfollows⟩ := h.claim c k hk
    obtain ⟨hb, hboarding⟩ := hs c x hx
    rw [← hfollows.berth] at hb hboarding
    exact ⟨(h.berth c).trans hb, h.boarding c k hk hboarding⟩

theorem SeatsKept.trans {s t u : State} (h : SeatsKept s t) (g : SeatsKept t u) : SeatsKept s u where
  count c := (g.count c).trans (h.count c)
  claim c := (h.claim c).trans (g.claim c)
  boarding c k hk hs := by
    obtain ⟨x, hx, hfollows⟩ := g.claim c k hk
    refine g.boarding c k hk ?_
    rw [hfollows.berth] at hs ⊢
    exact h.boarding c x hx hs
  berth c := (g.berth c).trans (h.berth c)
  blocks hs := g.blocks (h.blocks hs)

/-- A change after another: the later first, so that what is left to show ends where it begins. -/
theorem SeatsKept.after {s t u : State} (h : SeatsKept t u) (g : SeatsKept s t) : SeatsKept s u := g.trans h

/-- A change of the tables, the engine and what the seating does not hold keeps the claims where it keeps the blocks. -/
theorem SeatsKept.of_blocks {s t : State} (hclaims : t.claims = s.claims) (hcalls : t.calls = s.calls)
    (hset : t.settings = s.settings) (blocks : BlocksInRange s → BlocksInRange t) : SeatsKept s t where
  count c := by rw [State.claimsOf, hclaims]; exact Nat.le_refl _
  claim c := by rw [show t.claimsOf c = s.claimsOf c from congrArg (·.get c) hclaims]; exact .of_subset fun _ => id
  boarding c k _ h := by rwa [State.call_congr hcalls]
  berth c := by rw [State.berthOf, hset]; rfl
  blocks := blocks

/-- A change that leaves the seating alone keeps the claims. -/
theorem SeatsKept.of_seating {s t : State} (h : t.seating = s.seating) : SeatsKept s t := by
  have hclaims : t.claims = s.claims := congrArg Seating.claims h
  have hcalls : t.calls = s.calls := congrArg Seating.calls h
  have hallot : t.tables.allot = s.tables.allot := congrArg Seating.allot h
  have hwork : t.engine.work = s.engine.work := congrArg Seating.work h
  have hslot : ∀ i, t.slot i = s.slot i := by
    intro i
    cases i
    · exact congrArg Seating.slot0 h
    · exact congrArg Seating.slot1 h
  refine ⟨fun c => ?_, fun c => ?_, fun c k _ hs => ?_, fun c => ?_, fun hs => ⟨?_, ?_, fun i => ?_⟩⟩
  · rw [State.claimsOf, hclaims]; exact Nat.le_refl _
  · rw [show t.claimsOf c = s.claimsOf c from congrArg (·.get c) hclaims]; exact .of_subset fun _ => id
  · rwa [State.call_congr hcalls]
  · exact congrArg (fun p : PerChan (Option Berth) => p.get c) (congrArg Seating.berthOf h)
  · rw [hallot]; exact hs.allot
  · rw [hwork]; exact hs.work
  · rw [hslot]; exact hs.slot i

theorem SeatsKept.same (s : State) : SeatsKept s s := .of_seating rfl

/-- A change, and after it one that leaves the seating alone. -/
theorem SeatsKept.andSame {s t u : State} (h : SeatsKept s t) (e : u.seating = t.seating) : SeatsKept s u :=
  h.trans (.of_seating e)

theorem ClaimsKept.of_seating {s t : State} (h : t.seating = s.seating) : ClaimsKept s t := (SeatsKept.of_seating h).kept

/-- A claim kept sound by an event stays so by a part of it that grants no seat. -/
theorem ClaimsKept.andThen {s t u : State} (h : ClaimsKept s t) (g : SeatsKept t u) : ClaimsKept s u := h.trans g.kept

/-- A part of an event that grants no seat, after others. -/
theorem SeatsKept.afterKept {s t u : State} (g : SeatsKept t u) (h : ClaimsKept s t) : ClaimsKept s u := h.andThen g

namespace State

variable {s : State}

/-! ### The elementary changes -/

theorem foldl_seats {α : Type} {f : State → α → State} (hf : ∀ s x, SeatsKept s (f s x)) (xs : List α) (s : State) :
    SeatsKept s (xs.foldl f s) := by
  induction xs generalizing s with
  | nil => exact .same s
  | cons x xs ih => exact (hf s x).trans (ih _)

/-- A call record replaced by one that boards where it did. -/
theorem setCall_seats (b : Berth) {k : Call}
    (h : (s.call b).state.isBoarding = true → k.state.isBoarding = true) : SeatsKept s (s.setCall b k) where
  count _ := Nat.le_refl _
  claim _ := .of_subset fun _ => id
  boarding c x _ hs := by
    rw [call_setCall]
    split
    · next hb => exact h (hb ▸ hs)
    · exact hs
  berth _ := rfl
  blocks hs := ⟨hs.allot, hs.work, hs.slot⟩

/-- The claims of a channel replaced by no more claims, which follow them. -/
theorem setClaims_seats (c : Chan) {x : ChannelClaims} (hcount : x.count ≤ (s.claimsOf c).count)
    (hclaim : ClaimsFollow (s.claimsOf c).every x.every) : SeatsKept s (s.setClaims c x) where
  count d := by
    rw [claimsOf_setClaims]
    split
    · next hd => exact hd ▸ hcount
    · exact Nat.le_refl _
  claim d := by
    rw [claimsOf_setClaims]
    split
    · next hd => exact hd ▸ hclaim
    · exact .of_subset fun _ => id
  boarding _ _ _ hs := hs
  berth _ := rfl
  blocks hs := ⟨hs.allot, hs.work, hs.slot⟩

/-- Allotments replaced by ones of the same block sizes, and the journey list by any. -/
theorem withLists_seats {l : List Allotment} (j : List JourneyEntry)
    (h : ∀ a ∈ l, ∃ x ∈ s.tables.allot, a.block = x.block) : SeatsKept s (s.withLists l j) :=
  .of_blocks rfl rfl rfl fun hs => ⟨fun a ha => by
    obtain ⟨x, hx, hblock⟩ := h a ha
    rw [hblock]
    exact hs.allot x hx, hs.work, hs.slot⟩

/-- One entry changed but for its block size. -/
theorem map_block {l : List Allotment} {token : CardId} {f : Allotment → Allotment} (hf : ∀ a, (f a).block = a.block) :
    ∀ a ∈ l.map (fun a => if a.token = token then f a else a), ∃ x ∈ l, a.block = x.block := by
  intro a ha
  obtain ⟨x, hx, rfl⟩ := List.mem_map.mp ha
  refine ⟨x, hx, ?_⟩
  split
  · exact hf x
  · rfl

theorem modAllot_seats (token : CardId) {f : Allotment → Allotment} (hf : ∀ a, (f a).block = a.block) :
    SeatsKept s (s.modAllot token f) := withLists_seats s.engine.journey (map_block hf)

theorem modClaimAllot_seats (k : Claim) {f : Allotment → Allotment} (hf : ∀ a, (f a).block = a.block) :
    SeatsKept s (s.modClaimAllot k f) := by
  unfold modClaimAllot
  split
  · exact .same s
  · exact modAllot_seats _ hf

/-- A slot emptied, or taken by a case whose block size is in range. -/
theorem setSlot_blocks (i : Slot) {r : Option Referral} (hr : ∀ x, r = some x → within x.block 1 9 = true)
    (hs : BlocksInRange s) : BlocksInRange (s.setSlot i r) where
  allot := by cases i <;> exact hs.allot
  work := by cases i <;> exact hs.work
  slot j x hx := by
    rw [slot_setSlot] at hx
    split at hx
    · exact hr x hx
    · exact hs.slot j x hx

theorem setSlot_seats (i : Slot) {r : Option Referral} (hr : ∀ x, r = some x → within x.block 1 9 = true) :
    SeatsKept s (s.setSlot i r) := by
  refine .of_blocks ?_ ?_ ?_ (setSlot_blocks i hr) <;> cases i <;> rfl

theorem emptySlot_seats (i : Slot) : SeatsKept s (s.setSlot i none) := setSlot_seats i nofun

/-- The work replaced by none, or by one whose take found block sizes in range. -/
theorem setWork_seats {w : Option Work}
    (hw : BlocksInRange s → ∀ x, w = some x → ∀ a ∈ x.snap.allot, within a.block 1 9 = true) :
    SeatsKept s { s with engine := { s.engine with work := w } } :=
  .of_blocks rfl rfl rfl fun hs => ⟨hs.allot, hw hs, fun i => by
    cases i
    · exact hs.slot .s0
    · exact hs.slot .s1⟩

/-! ### Notices, reader lines and the arbiter -/

variable (s)

theorem queue_seats (n : Notice) : SeatsKept s (s.queue n) := by
  obtain ⟨q, h⟩ := queue_frame s n
  rw [h]
  exact .of_seating rfl

theorem queueAll_seats (ns : List Notice) : SeatsKept s (s.queueAll ns) := foldl_seats queue_seats ns s

theorem queueIf_seats (p : Bool) (n : Notice) : SeatsKept s (s.queueIf p n) := by
  obtain ⟨q, h⟩ := queueIf_frame s p n
  rw [h]
  exact .of_seating rfl

theorem deliver_seats (c : Chan) (v : Verdict) : SeatsKept s (s.deliver c v) := by
  obtain ⟨k, p, h⟩ := deliver_frame s c v
  rw [h]
  exact .of_seating rfl

theorem sendSetup_seats (c : Chan) : SeatsKept s (s.sendSetup c) := by
  obtain ⟨k, p, h⟩ := sendSetup_frame s c
  rw [h]
  exact .of_seating rfl

theorem refusePending_seats (c : Chan) (code : VerdictCode) : SeatsKept s (s.refusePending c code) := by
  obtain ⟨a, k, p, h⟩ := refusePending_frame s c code
  rw [h]
  exact .of_seating rfl

theorem refuseDesk_seats (code : VerdictCode) : SeatsKept s (s.refuseDesk code) := by
  obtain ⟨a, q, h⟩ := refuseDesk_frame s code
  rw [h]
  exact .of_seating rfl

theorem refuseOfBerth_seats (b : Berth) (code : VerdictCode) (p : Chan → Bool) :
    SeatsKept s (s.refuseOfBerth b code p) := by
  obtain ⟨a, k, q, h⟩ := refuseOfBerth_frame s b code p
  rw [h]
  exact .of_seating rfl

theorem refuseBySettings_seats (old : Settings) : SeatsKept s (s.refuseBySettings old) := by
  obtain ⟨a, k, p, q, h⟩ := refuseBySettings_frame s old
  rw [h]
  exact .of_seating rfl

theorem arrive_seats (c : Chan) (card : Card) : SeatsKept s (s.arrive c card) := by
  obtain ⟨a, k, p, h⟩ := arrive_frame s c card
  rw [h]
  exact .of_seating rfl

theorem arriveDesk_seats (card : Card) (line : Nat) : SeatsKept s (s.arriveDesk card line) := by
  obtain ⟨a, q, h⟩ := arriveDesk_frame s card line
  rw [h]
  exact .of_seating rfl

theorem settle_seats (before : State) (after : List Notice) : SeatsKept s (settle before s after) := by
  obtain ⟨q, a, k, p, h⟩ := settle_frame before s after
  rw [h]
  exact .of_seating rfl

/-- A take fixes the allotments as they stand (R102, R161). -/
theorem takeWork_seats (q : Requester) (card : Card) : SeatsKept s (s.takeWork q card) := by
  refine setWork_seats fun hs x hx => ?_
  obtain rfl := Option.some.inj hx
  exact hs.allot

theorem select_seats : SeatsKept s s.select := by
  have handed : ∀ q, SeatsKept s (s.handOver q) := by
    intro q
    cases q with
    | channel c =>
      unfold handOver
      dsimp only
      split
      · exact .same s
      · exact (takeWork_seats _ _ _).after (.of_seating rfl)
    | desk line =>
      unfold handOver
      dsimp only
      split
      · exact .same s
      · exact (takeWork_seats _ _ _).after (.of_seating rfl)
  unfold select
  split
  · exact .same s
  · split
    · exact .same s
    · exact handed _

/-- How an event ends: its notices, the channels, and a selection. -/
theorem settleSelect_seats (before : State) (after : List Notice) : SeatsKept s (settle before s after).select :=
  (settle_seats s before after).trans (select_seats _)

theorem dropReferral_seats (c : Chan) (i : Slot) : SeatsKept s (s.dropReferral c i) := by
  unfold dropReferral
  split
  · exact .same s
  · split
    · exact emptySlot_seats i
    · exact .same s

theorem markWithdrawn_seats (c : Chan) : SeatsKept s (s.markWithdrawn c) := by
  unfold markWithdrawn
  split
  · exact .same s
  · next w hw =>
    split
    · refine setWork_seats fun hs x hx => ?_
      obtain rfl := Option.some.inj hx
      exact hs.work w hw
    · exact .same s

theorem withdrawPresentation_seats (c : Chan) : SeatsKept s (s.withdrawPresentation c) := by
  unfold withdrawPresentation
  split
  · exact .same s
  · exact (dropReferral_seats _ c .s1).after <| (dropReferral_seats _ c .s0).after <|
      (markWithdrawn_seats _ c).after (.of_seating rfl)

/-! ### The claim table -/

theorem recordWrite_seats (c : Chan) (k : Claim) (tag : Nat) (outcome : JourneyOutcome) :
    SeatsKept s (s.recordWrite c k tag outcome) := by
  obtain ⟨j, h⟩ := recordWrite_frame s c k tag outcome
  rw [h]
  exact .of_seating rfl

theorem allotReturned_block (l : List Allotment) (k : Claim) :
    ∀ a ∈ allotReturned l k, ∃ x ∈ l, a.block = x.block := by
  unfold allotReturned
  split
  · exact fun a ha => ⟨a, ha, rfl⟩
  · exact map_block fun _ => rfl

theorem returnSeats_seats (k : Claim) : SeatsKept s (s.returnSeats k) := modClaimAllot_seats k fun _ => rfl

theorem lapseEffects_seats (k : Claim) : SeatsKept s (s.lapseEffects k) := by
  rw [lapseEffects_eq]
  exact withLists_seats _ (allotReturned_block _ k)

theorem unknownEffects_seats (c : Chan) (k : Claim) : SeatsKept s (s.unknownEffects c k) := by
  rw [unknownEffects_eq]
  exact withLists_seats _ (allotReturned_block _ k)

theorem endClaims_seats (c : Chan) (p : Claim → Bool) : SeatsKept s (s.endClaims c p) := by
  refine SeatsKept.trans (SeatsKept.trans (setClaims_seats c ?_ (.of_subset fun k hk => ?_))
    (foldl_seats lapseEffects_seats _ _)) (foldl_seats (fun t k => unknownEffects_seats t c k) _ _)
  · exact Nat.add_le_add (List.length_filter_le _ _) (List.length_filter_le _ _)
  · rcases List.mem_append.mp hk with hk | hk
    · exact List.mem_append_left _ (List.mem_filter.mp hk).1
    · exact List.mem_append_right _ (List.mem_filter.mp hk).1

theorem endCallClaims_seats (b : Berth) : SeatsKept s (s.endCallClaims b) :=
  foldl_seats (fun t c => endClaims_seats t c _) Chan.all s

theorem promote_follow (window : Nat) (ks : List Claim) : ClaimsFollow ks (promote window ks) := by
  cases ks with
  | nil => exact .of_subset fun _ => id
  | cons k ks =>
    intro x hx
    rcases List.mem_cons.mp hx with rfl | hx
    · exact ⟨k, List.mem_cons_self, rfl, id⟩
    · exact ⟨x, List.mem_cons_of_mem _ hx, .same x⟩

theorem promote_length (window : Nat) (ks : List Claim) : (promote window ks).length = ks.length := by
  cases ks <;> rfl

theorem joinLive_follow (window : Nat) (ks : List Claim) (k : Claim) :
    ClaimsFollow (ks ++ [k]) (joinLive window ks k) := by
  rw [joinLive_eq]
  intro x hx
  rcases List.mem_append.mp hx with hx | hx
  · exact ⟨x, List.mem_append_left _ hx, .same x⟩
  · obtain rfl := List.mem_singleton.mp hx
    exact ⟨k, List.mem_append_right _ List.mem_cons_self, rfl, id⟩

theorem joinLive_length (window : Nat) (ks : List Claim) (k : Claim) :
    (joinLive window ks k).length = ks.length + 1 := by
  rw [joinLive_eq, List.length_append, List.length_singleton]

/-- The claim of a tag and the claims without it are the claims. -/
theorem takeTag_perm {tag : Nat} {ks rest : List Claim} {k : Claim} (h : takeTag tag ks = some (k, rest)) :
    ks.Perm (k :: rest) := by
  induction ks generalizing rest with
  | nil => cases h
  | cons x xs ih =>
    unfold takeTag at h
    split at h
    · cases h
      exact .refl _
    · obtain ⟨⟨y, ys⟩, hy, he⟩ := Option.map_eq_some_iff.mp h
      cases he
      exact ((ih hy).cons x).trans (.swap ..)

/-- Claims of which only the live queue is replaced. -/
theorem ClaimsFollow.live {x : ChannelClaims} {ks : List Claim} (h : ClaimsFollow x.live ks) :
    ClaimsFollow x.every ({ x with live := ks } : ChannelClaims).every := by
  intro k hk
  rcases List.mem_append.mp hk with hk | hk
  · obtain ⟨y, hy, hyk⟩ := h k hk
    exact ⟨y, List.mem_append_left _ hy, hyk⟩
  · exact ⟨k, List.mem_append_right _ hk, .same k⟩

theorem lapseHead_seats (c : Chan) : SeatsKept s (s.lapseHead c) := by
  unfold lapseHead
  split
  · exact .same s
  · next k ks hlive =>
    refine (setClaims_seats c ?_ (ClaimsFollow.live ?_)).trans (lapseEffects_seats _ k)
    · simp only [ChannelClaims.count, promote_length, hlive, List.length_cons]
      omega
    · rw [hlive]
      exact ClaimsFollow.trans (.of_subset (List.subset_cons_self _ _)) (promote_follow _ ks)

/-- The provisional claim of a tag leaves the claim table. -/
theorem takeTag_seats (c : Chan) {tag : Nat} {k : Claim} {rest : List Claim}
    (h : takeTag tag (s.claimsOf c).provisional = some (k, rest)) :
    SeatsKept s (s.setClaims c { s.claimsOf c with provisional := rest }) := by
  have hperm := takeTag_perm h
  refine setClaims_seats c ?_ (.of_subset fun x hx => ?_)
  · have := hperm.length_eq
    simp only [List.length_cons] at this
    simp only [ChannelClaims.count]
    omega
  · rcases List.mem_append.mp hx with hx | hx
    · exact List.mem_append_left _ hx
    · exact List.mem_append_right _ (hperm.mem_iff.mpr (List.mem_cons_of_mem _ hx))

theorem countFare_seats (k : Claim) : SeatsKept s (s.countFare k) := by
  rw [countFare_eq]
  exact setCall_seats k.berth fun h => by split <;> exact h

theorem writeDone_seats (c : Chan) (tag : Nat) : SeatsKept s (s.writeDone c tag) := by
  unfold writeDone
  split
  · exact .same s
  · next k rest htake =>
    have hperm := takeTag_perm htake
    refine ((setClaims_seats c ?_ fun x hx => ?_).trans (countFare_seats _ k)).trans (recordWrite_seats _ c k tag _)
    · have := hperm.length_eq
      simp only [List.length_cons] at this
      simp only [ChannelClaims.count, joinLive_length]
      omega
    · rcases List.mem_append.mp hx with hx | hx
      · obtain ⟨y, hy, hyx⟩ := joinLive_follow _ _ k x hx
        refine ⟨y, ?_, hyx⟩
        rcases List.mem_append.mp hy with hy | hy
        · exact List.mem_append_left _ hy
        · exact List.mem_append_right _ (hperm.mem_iff.mpr (List.mem_singleton.mp hy ▸ List.mem_cons_self))
      · exact ⟨x, List.mem_append_right _ (hperm.mem_iff.mpr (List.mem_cons_of_mem _ hx)), .same x⟩

theorem writeFailed_seats (c : Chan) (tag : Nat) : SeatsKept s (s.writeFailed c tag) := by
  unfold writeFailed
  split
  · exact .same s
  · next k _ htake => exact (takeTag_seats s c htake).trans (returnSeats_seats _ k)

theorem writeUnknown_seats (c : Chan) (tag : Nat) : SeatsKept s (s.writeUnknown c tag) := by
  unfold writeUnknown
  split
  · exact .same s
  · next k _ htake => exact (takeTag_seats s c htake).trans (unknownEffects_seats _ c k)

theorem endWriteUnknown_seats (c : Chan) : SeatsKept s (s.endWriteUnknown c) := by
  unfold endWriteUnknown
  split
  · exact .same s
  · exact (writeUnknown_seats _ c _).after (.of_seating rfl)

theorem allotPassed_block (l : List Allotment) (k : Claim) : ∀ a ∈ allotPassed l k, ∃ x ∈ l, a.block = x.block := by
  unfold allotPassed
  split
  · exact fun a ha => ⟨a, ha, rfl⟩
  · exact map_block (f := fun a => { a with held := a.held - 1, passed := a.passed + 1 }) fun _ => rfl

/-- The head keeps its place only with a seat left to pass (R45). -/
theorem passedQueue_follow (window : Nat) (k : Claim) (ks : List Claim) :
    ClaimsFollow (k :: ks) (passedQueue window k ks) := by
  unfold passedQueue
  split
  · next hmore =>
    intro x hx
    rcases List.mem_cons.mp hx with rfl | hx
    · exact ⟨k, List.mem_cons_self, rfl, fun _ => hmore⟩
    · exact ⟨x, List.mem_cons_of_mem _ hx, .same x⟩
  · exact ClaimsFollow.trans (.of_subset (List.subset_cons_self _ _)) (promote_follow _ ks)

theorem passedQueue_length (window : Nat) (k : Claim) (ks : List Claim) :
    (passedQueue window k ks).length ≤ ks.length + 1 := by
  unfold passedQueue
  split
  · exact Nat.le_refl _
  · rw [promote_length]
    exact Nat.le_succ _

theorem consumeSeat_seats (c : Chan) (b : Berth) {k : Claim} {ks : List Claim} (hlive : (s.claimsOf c).live = k :: ks) :
    SeatsKept s (s.consumeSeat c b k ks) := by
  rw [consumeSeat_eq]
  refine (withLists_seats _ (allotPassed_block _ k)).after <|
    (setClaims_seats c ?_ (ClaimsFollow.live ?_)).after (setCall_seats b id)
  · have hle := passedQueue_length (s.windowOf c) k ks
    show _ + _ ≤ (s.claimsOf c).live.length + _
    rw [hlive]
    exact Nat.add_le_add_right hle _
  · show ClaimsFollow (s.claimsOf c).live _
    rw [hlive]
    exact passedQueue_follow _ k ks

end State

end Sys2Proof.Machine
end

section
/-! Claims kept sound by the grants of the engine and the desk, by the call table and by a change of settings. -/

namespace Sys2Proof.Machine

open Safety

namespace State

variable {o s : State}

/-! ### Grants (R33, R34, R112) -/

/-- A claim entered on a boarding call of its channel's berth, with a seat to pass, on a channel with room for it. -/
theorem enterClaim_kept (hs : ClaimsKept o s) {c : Chan} {k : Claim} (hb : s.berthOf c = some k.berth)
    (hboarding : (s.call k.berth).state.isBoarding = true) (hroom : (s.claimsOf c).count < Config.claimsPerChannel)
    (hseat : ClaimsUnpassed o → k.passed < k.granted) : ClaimsKept o (s.enterClaim c k) := by
  unfold enterClaim
  dsimp only
  generalize hx : (if k.tag.isSome = true then { s.claimsOf c with provisional := (s.claimsOf c).provisional ++ [k] }
    else { s.claimsOf c with live := joinLive (s.windowOf c) (s.claimsOf c).live k }) = x
  have hcount : x.count ≤ Config.claimsPerChannel := by
    have hroom' : (s.claimsOf c).live.length + (s.claimsOf c).provisional.length < Config.claimsPerChannel := hroom
    rw [← hx]
    split
    · simp only [ChannelClaims.count, List.length_append, List.length_singleton]
      omega
    · simp only [ChannelClaims.count, joinLive_length]
      omega
  have hclaim : ClaimsFollow (k :: (s.claimsOf c).every) x.every := by
    intro y hy
    rw [← hx] at hy
    split at hy
    · refine ⟨y, ?_, .same y⟩
      simpa [ChannelClaims.every, or_comm, or_left_comm, or_assoc] using hy
    · rcases List.mem_append.mp hy with hy | hy
      · obtain ⟨z, hz, hzy⟩ := joinLive_follow _ _ k y hy
        refine ⟨z, ?_, hzy⟩
        rcases List.mem_append.mp hz with hz | hz
        · exact List.mem_cons_of_mem _ (List.mem_append_left _ hz)
        · exact List.mem_singleton.mp hz ▸ List.mem_cons_self
      · exact ⟨y, List.mem_cons_of_mem _ (List.mem_append_right _ hy), .same y⟩
  have entered : ClaimsKept o (s.setClaims c x) := by
    refine ⟨fun ho d => ?_, fun ho => ?_, fun ho d y hy => ?_⟩
    · rw [claimsOf_setClaims]
      split
      · exact hcount
      · exact hs.limited ho d
    · obtain ⟨hclaims, hblocks⟩ := claimsUnpassed_iff.mp (hs.unpassed ho)
      refine claimsUnpassed_iff.mpr ⟨fun d y hy => ?_, ⟨hblocks.allot, hblocks.work, hblocks.slot⟩⟩
      rw [claimsOf_setClaims] at hy
      split at hy
      · obtain ⟨z, hz, hzy⟩ := hclaim y hy
        rcases List.mem_cons.mp hz with rfl | hz
        · exact hzy.seat (hseat ho)
        · exact hzy.seat (hclaims c z hz)
      · exact hclaims d y hy
    · rw [claimsOf_setClaims] at hy
      split at hy
      · next hd =>
        subst hd
        obtain ⟨z, hz, hzy⟩ := hclaim y hy
        rw [hzy.berth]
        rcases List.mem_cons.mp hz with rfl | hz
        · exact ⟨hb, hboarding⟩
        · exact hs.onBoarding ho d z hz
      · exact hs.onBoarding ho d y hy
  exact entered.andThen (modClaimAllot_seats k fun _ => rfl)

/-- A request for a seat or more is granted one or more (R33). -/
theorem seatsGranted_pos {b : Berth} {r : SeatRequest} {n : Nat} (hseats : 0 < r.seats)
    (h : s.seatsGranted b r = some n) : 0 < n := by
  unfold seatsGranted at h
  split at h
  · cases h
    exact hseats
  · split at h
    · next hpart =>
      cases h
      exact of_decide_eq_true (Bool.and_eq_true_iff.mp hpart).2
    · split at h
      · cases h
        exact Nat.one_pos
      · cases h

theorem requestSeats_kept (hs : ClaimsKept o s) (r : SeatRequest) (hseats : ClaimsUnpassed o → 0 < r.seats) :
    ClaimsKept o (s.requestSeats r).1 := by
  unfold requestSeats
  split
  · exact hs
  · next b hb =>
    split
    · exact hs
    · next hboarding =>
      split
      · exact hs
      · next hroom =>
        split
        · exact hs
        · next n hn =>
          have hboarding' : (s.call b).state.isBoarding = true := by simpa using hboarding
          exact enterClaim_kept hs hb hboarding' (Nat.not_le.mp hroom) fun ho => seatsGranted_pos (hseats ho) hn

/-! ### The terms of an accept ask for a seat (R110, R159, Table 9-1, Table 9-2) -/

/-- The terms of a decision, where it accepts, ask for a seat. -/
def AsksSeat : Decision → Prop
  | .accept t => 0 < t.seats
  | .refuse _ | .deniedBlock | .refer _ => True

theorem decideProduct_asksSeat (p : ProductEntry) (t : Tariff) (clock : Option ClockTime) (line : Nat) (card : Card) :
    AsksSeat (decideProduct p t clock line card) := by
  unfold decideProduct
  split
  · split
    · exact trivial
    · split
      · exact trivial
      · exact Nat.one_pos
    · exact Nat.one_pos
  · split
    · exact trivial
    · exact trivial
    · exact Nat.one_pos
  · split
    · exact trivial
    · split
      · exact trivial
      · exact Nat.one_pos
  · exact trivial
  · exact Nat.one_pos

theorem decideByProduct_asksSeat (table : ProductTable) (t : Tariff) (clock : Option ClockTime) (line : Nat)
    (card : Card) : AsksSeat (decideByProduct table t clock line card) := by
  unfold decideByProduct
  split
  · exact trivial
  · split
    · exact decideProduct_asksSeat ..
    · exact trivial

theorem ofAllotment_asksSeat {a : Allotment} (hremaining : a.remaining ≠ 0) (hblock : within a.block 1 9 = true) :
    0 < (Terms.ofAllotment a).seats :=
  Nat.lt_min.mpr ⟨Nat.pos_of_ne_zero hremaining, (within_iff.mp hblock).1⟩

theorem decideAllotment_asksSeat {a : Allotment} (hblock : within a.block 1 9 = true) (clock : Option ClockTime)
    (line : Nat) : AsksSeat (decideAllotment a clock line) := by
  unfold decideAllotment
  split
  · exact trivial
  · split
    · exact trivial
    · split
      · exact trivial
      · next hremaining => exact ofAllotment_asksSeat hremaining hblock

/-- The block size that applies to a presentation is one of the table or of the take (R161, assumption 26). -/
theorem applied_block {snap : Snapshot} {a : Allotment} (hsnap : ∀ x ∈ snap.allot, within x.block 1 9 = true)
    (ha : within a.block 1 9 = true) : within (snap.applied a).block 1 9 = true := by
  unfold Snapshot.applied
  split
  · exact ha
  · next b hb => exact hsnap b (List.mem_of_find?_eq_some hb)

theorem allotOf_mem {token : CardId} {a : Allotment} (h : s.allotOf token = some a) : a ∈ s.tables.allot :=
  List.mem_of_find?_eq_some h

theorem decideCard_asksSeat (hblocks : BlocksInRange s) {snap : Snapshot}
    (hsnap : ∀ x ∈ snap.allot, within x.block 1 9 = true) (card : Card) (line : Nat) :
    AsksSeat (s.decideCard card snap line).1 := by
  unfold decideCard
  split
  · exact trivial
  · split
    · exact trivial
    · split
      · split
        · split <;> exact trivial
        · split
          · next a ha =>
            exact decideAllotment_asksSeat (applied_block hsnap (hblocks.allot a (allotOf_mem ha))) _ _
          · split
            · exact trivial
            · exact Nat.one_pos
            · exact decideByProduct_asksSeat ..
            · exact decideByProduct_asksSeat ..
      · exact trivial

theorem blockOf_inRange (hblocks : BlocksInRange s) {snap : Snapshot}
    (hsnap : ∀ x ∈ snap.allot, within x.block 1 9 = true) (card : Card) : within (s.blockOf card snap) 1 9 = true := by
  unfold blockOf
  split
  · rfl
  · next a ha => exact applied_block hsnap (hblocks.allot a (allotOf_mem ha))

theorem fallbackTerms_asksSeat {block : Nat} (h : 0 < block) (cause : Cause) : 0 < (fallbackTerms block cause).seats := by
  cases cause
  · exact Nat.one_pos
  · exact Nat.one_pos
  · exact h

/-! ### Cases taken to their verdict (R105, R112, R151 to R156) -/

theorem refuseCase_seats (s : State) (c : Chan) (card : Card) (code : VerdictCode) :
    SeatsKept s (s.refuseCase c card code).state := deliver_seats s c (plainVerdict card code)

theorem stageTen_kept (hs : ClaimsKept o s) (c : Chan) (card : Card) (clock : Option ClockTime) (t : Terms)
    (hseats : ClaimsUnpassed o → 0 < t.seats) : ClaimsKept o (s.stageTen c card clock t).state := by
  unfold stageTen
  dsimp only
  generalize hdrawn : (if t.writes = true then s.drawTag.setNote c s.engine.nextTag t.charge else s) = drawn
  have drew : SeatsKept s drawn := by
    rw [← hdrawn]
    split
    · exact .of_seating rfl
    · exact .same s
  have held := requestSeats_kept (hs.andThen drew) (seatRequest c card t s.engine.nextTag) hseats
  split
  · next u _ heq =>
    rw [heq] at held
    refine ClaimsKept.andThen (held.andThen ?_) (deliver_seats _ c _)
    split
    · unfold readmit
      split
      · exact .same u
      · exact .of_seating rfl
    · exact .same u
  all_goals
    next u heq =>
      rw [heq] at held
      exact held.andThen (refuseCase_seats u c card _)

theorem acceptCase_kept (hs : ClaimsKept o s) (c : Chan) (card : Card) (clock : Option ClockTime) (t : Terms)
    (hseats : ClaimsUnpassed o → 0 < t.seats) : ClaimsKept o (s.acceptCase c card clock t).state := by
  unfold acceptCase
  split
  · exact hs.andThen (refuseCase_seats s c card _)
  · exact stageTen_kept hs c card clock t hseats

theorem fallback_kept (hs : ClaimsKept o s) (c : Chan) (card : Card) (cause : Cause) {block : Nat}
    (hblock : ClaimsUnpassed o → within block 1 9 = true) : ClaimsKept o (s.fallback c card cause block).state := by
  unfold fallback
  split
  · exact hs.andThen (refuseCase_seats s c card _)
  · exact acceptCase_kept hs c card _ _ fun ho => fallbackTerms_asksSeat (within_iff.mp (hblock ho)).1 cause

theorem raise_kept (hs : ClaimsKept o s) (i : Slot) (c : Chan) (b : Berth) (card : Card) (cause : Cause) {block : Nat}
    (hblock : ClaimsUnpassed o → within block 1 9 = true) : ClaimsKept o (s.raise i c b card cause block) := by
  refine ⟨fun ho d => ?_, fun ho => ?_, fun ho d => ?_⟩
  · have h := hs.limited ho d
    cases i <;> exact h
  · obtain ⟨hclaims, hblocks⟩ := claimsUnpassed_iff.mp (hs.unpassed ho)
    refine claimsUnpassed_iff.mpr ⟨?_, setSlot_blocks i (fun x hx => ?_) ⟨hblocks.allot, hblocks.work, fun j => ?_⟩⟩
    · cases i <;> exact hclaims
    · obtain rfl := Option.some.inj hx
      exact hblock ho
    · have h := hblocks.slot j
      cases j <;> exact h
  · have h := hs.onBoarding ho d
    cases i <;> exact h

theorem referCase_kept (hs : ClaimsKept o s) (c : Chan) (card : Card) (cause : Cause) {block : Nat}
    (hblock : ClaimsUnpassed o → within block 1 9 = true) : ClaimsKept o (s.referCase c card cause block).1 := by
  unfold referCase
  split
  · split
    · exact fallback_kept hs c card cause hblock
    · exact raise_kept hs _ c _ card cause hblock
  · exact fallback_kept hs c card cause hblock

theorem completeStages_kept (hs : ClaimsKept o s) (c : Chan) (w : Work)
    (hsnap : ClaimsUnpassed o → ∀ a ∈ w.snap.allot, within a.block 1 9 = true) :
    ClaimsKept o (s.completeStages c w).1 := by
  have hasks : ClaimsUnpassed o → AsksSeat (s.decideCard w.card w.snap (s.lineOf c)).1 := fun ho =>
    decideCard_asksSeat (claimsUnpassed_iff.mp (hs.unpassed ho)).2 (hsnap ho) _ _
  unfold completeStages
  dsimp only
  generalize hnoted : (if (s.decideCard w.card w.snap (s.lineOf c)).2 = true then s.resolveNewest w.card.id else s) =
    noted
  have kept : ClaimsKept o noted := by
    rw [← hnoted]
    split
    · exact hs.andThen (.of_seating rfl)
    · exact hs
  split
  · dsimp only
    exact (deliver_seats noted c _).afterKept kept
  · dsimp only [denyWithBlock]
    exact (deliver_seats noted.drawTag c _).afterKept (kept.andThen (.of_seating rfl))
  · next t ht =>
    refine acceptCase_kept kept c w.card _ t fun ho => ?_
    have hseats := hasks ho
    rwa [ht] at hseats
  · refine referCase_kept kept c w.card _ fun ho => ?_
    exact blockOf_inRange (claimsUnpassed_iff.mp (kept.unpassed ho)).2 (hsnap ho) _

theorem completeWork_kept {w : Work} (hw : s.engine.work = some w) : ClaimsKept s (s.completeWork w).1 := by
  have freed : ClaimsKept s s.freeEngine := (setWork_seats (w := none) fun _ _ h => nomatch h).kept
  unfold completeWork
  split
  · exact (queue_seats _ _).afterKept (freed.andThen (.of_seating rfl))
  · split
    · exact freed
    · split
      · dsimp only
        exact (deliver_seats s.freeEngine _ _).afterKept freed
      · dsimp only
        exact (deliver_seats s.freeEngine _ _).afterKept freed
      · exact completeStages_kept freed _ w fun ho => (claimsUnpassed_iff.mp ho).2.work w hw

theorem complete_kept (s : State) : ClaimsKept s s.complete := by
  unfold complete
  split
  · exact .same s
  · next w hw => exact (completeWork_kept hw).andThen (settleSelect_seats _ _ _)

theorem resolveByFallback_kept (hs : ClaimsKept o s) (i : Slot) : ClaimsKept o (s.resolveByFallback i).1 := by
  unfold resolveByFallback
  split
  · exact hs
  · next r hr =>
    refine fallback_kept (hs.andThen (emptySlot_seats i)) _ _ _ fun ho => ?_
    exact (claimsUnpassed_iff.mp (hs.unpassed ho)).2.slot i r hr

theorem referralRunsOut_kept (s : State) (i : Slot) : ClaimsKept s (s.referralRunsOut i) := by
  unfold referralRunsOut
  split
  · exact .same s
  · split
    · exact (resolveByFallback_kept (.same s) i).andThen (settle_seats _ _ _)
    · exact .same s

theorem supervisionRunsOut_kept (s : State) : ClaimsKept s s.supervisionRunsOut := by
  unfold supervisionRunsOut
  split
  · exact .same s
  · refine ClaimsKept.andThen (resolveByFallback_kept (resolveByFallback_kept ?_ .s0) .s1) (settle_seats _ _ _)
    exact (queue_seats _ _).afterKept (.of_seating rfl)

/-- The seats that an accepted answer extends an allotment by are there to be taken (R153, R160). -/
theorem extended_remaining {token : CardId} {extra : Nat} {a : Allotment} (hextra : extra ≠ 0)
    (h : (s.modAllot token (Allotment.extend extra)).allotOf token = some a) : a.remaining ≠ 0 := by
  have hmem := allotOf_mem h
  have htoken : a.token = token := by
    have hfound := List.find?_some h
    exact of_decide_eq_true hfound
  obtain ⟨x, -, rfl⟩ := List.mem_map.mp hmem
  split at htoken
  · next hx =>
    rw [if_pos hx]
    show x.remaining + extra ≠ 0
    omega
  · next hx => exact absurd htoken hx

theorem answerReferral_kept {i : Slot} {r : Referral} {v : AnswerVerdict} {fare extra : Nat}
    (hslot : s.slot i = some r) (hfits : s.answerMisfits r v fare extra = false) :
    ClaimsKept s (s.answerReferral i r v fare extra).state := by
  have freed : ClaimsKept s (s.setSlot i none) := (emptySlot_seats i).kept
  have hblock : ClaimsUnpassed s → within r.block 1 9 = true := fun hs => (claimsUnpassed_iff.mp hs).2.slot i r hslot
  unfold answerReferral
  dsimp only
  split
  · exact freed.andThen (refuseCase_seats _ _ _ _)
  · exact fallback_kept freed _ _ _ hblock
  · refine acceptCase_kept ?_ _ _ _ _ fun hs => ?_
    · split
      · exact freed.andThen (modAllot_seats _ fun _ => rfl)
      · exact freed
    · cases hcause : r.cause with
      | unknownProduct => exact Nat.one_pos
      | account fare peak => exact Nat.one_pos
      | allotmentSpent total passed =>
        dsimp only [answerTerms]
        split
        · next a ha =>
          have hremaining : extra ≠ 0 → a.remaining ≠ 0 := fun hextra => extended_remaining hextra ha
          refine ofAllotment_asksSeat (a := { a with block := r.block }) (hremaining ?_) (hblock hs)
          have hfits' : answerFits (s.allotOf r.card.id) fare extra r.cause = true := by
            simpa [answerMisfits] using hfits
          rw [hcause] at hfits'
          simp only [answerFits, Bool.and_eq_true, decide_eq_true_eq] at hfits'
          obtain ⟨⟨-, hextra⟩, -⟩ := hfits'
          omega
        · exact Nat.one_pos

end State

end Sys2Proof.Machine
end

section
/-! Claims kept sound by the call table, the settings, the tables and the readers, by every command and by every
step. -/

namespace Sys2Proof.Machine

open Safety

namespace State

variable {o s : State}

/-! ### Call records (R7 to R17, R165) -/

variable (s)

theorem markIfOver_seats (b : Berth) (cause : MarkCause) : SeatsKept s (s.markIfOver b cause) := by
  rw [markIfOver_eq]
  exact (queueAll_seats _ _).after (setCall_seats b id)

theorem recordEnd_blocks (b : Berth) (reason : EndReason) (cause : CallCause) (hs : BlocksInRange s) :
    BlocksInRange (s.recordEnd b reason cause) := by
  obtain ⟨n, t, q, h⟩ := recordEnd_frame s b reason cause
  rw [h]
  exact ⟨hs.allot, hs.work, hs.slot⟩

/-- A record that ENDED, with the claims on its call ended: no claim is left that stood on it (R17, R49). -/
theorem endedClaims_seats (b : Berth) (reason : EndReason) (cause : CallCause) :
    SeatsKept s ((s.recordEnd b reason cause).endCallClaims b) := by
  have ended := endCallClaims_seats (s.recordEnd b reason cause) b
  have hclaims : ∀ c, (s.recordEnd b reason cause).claimsOf c = s.claimsOf c := by
    obtain ⟨n, t, q, h⟩ := recordEnd_frame s b reason cause
    rw [h]
    exact fun _ => rfl
  refine ⟨fun c => ?_, fun c => ?_, fun c k hk hboards => ?_, fun c => ?_,
    fun hs => ended.blocks (recordEnd_blocks s b reason cause hs)⟩
  · rw [← hclaims]
    exact ended.count c
  · rw [← hclaims]
    exact ended.claim c
  · rw [endCallClaims_eq, claimsOf_claimsEnded] at hk
    have hb : k.berth ≠ b := of_decide_eq_false (mem_without hk).2
    rwa [call, endCallClaims_calls, recordEnd_calls, PerBerth.get_set, if_neg hb]
  · rw [ended.berth]
    obtain ⟨n, t, q, h⟩ := recordEnd_frame s b reason cause
    rw [h]
    rfl

theorem markEnded_seats (b : Berth) (reason : EndReason) : SeatsKept s (s.markEnded b reason) := by
  unfold markEnded
  split
  · exact .same s
  · next w hw =>
    split
    · exact .same s
    · split
      · refine setWork_seats fun hs x hx => ?_
        obtain rfl := Option.some.inj hx
        exact hs.work w hw
      · exact .same s

theorem resolveSlot_seats (i : Slot) (code : VerdictCode) : SeatsKept s (s.resolveSlot i code) := by
  unfold resolveSlot
  split
  · exact .same s
  · exact (deliver_seats _ _ _).after (emptySlot_seats i)

theorem resolveSlotOfBerth_seats (b : Berth) (i : Slot) (code : VerdictCode) :
    SeatsKept s (s.resolveSlotOfBerth b i code) := by
  unfold resolveSlotOfBerth
  split
  · exact .same s
  · split
    · exact resolveSlot_seats s i code
    · exact .same s

theorem endCall_seats (b : Berth) (reason : EndReason) (cause : CallCause) :
    SeatsKept s (s.endCall b reason cause) :=
  (resolveSlotOfBerth_seats _ b .s1 _).after <| (resolveSlotOfBerth_seats _ b .s0 _).after <|
    (markEnded_seats _ b reason).after <| (refuseOfBerth_seats _ b _ _).after (endedClaims_seats s b reason cause)

theorem enterLastCall_seats (b : Berth) (cause : CallCause) : SeatsKept s (s.enterLastCall b cause) := by
  have entered : SeatsKept s (s.lastCalled b) :=
    (setCall_seats (k := { s.call b with state := .lastCall, lastCallAt := s.stamp }) b fun _ => rfl).andSame rfl
  rw [enterLastCall_eq]
  exact (refuseOfBerth_seats _ b _ _).after ((queueAll_seats _ _).after entered)

theorem endByEgress_seats (b : Berth) : SeatsKept s (s.endByEgress b) := by
  unfold endByEgress
  split
  · exact endCall_seats s b _ _
  · exact .same s

theorem enterEgress_seats (cause : EgressCause) : SeatsKept s (s.enterEgress cause) := by
  have started : SeatsKept s (s.startEgress cause) := by
    obtain ⟨e, q, h⟩ := startEgress_frame s cause
    rw [h]
    exact .of_seating rfl
  exact (refuseDesk_seats _ _).after <| (resolveSlot_seats _ .s1 _).after <| (resolveSlot_seats _ .s0 _).after <|
    (endByEgress_seats _ .b1).after <| (endByEgress_seats _ .b0).after started

theorem leaveEgress_seats : SeatsKept s s.leaveEgress := by
  obtain ⟨e, q, h⟩ := leaveEgress_frame s
  rw [h]
  exact .of_seating rfl

/-! ### Requests (R174) -/

variable {s}

theorem whenRunning_kept {f : State → State} (h : ClaimsKept s (f s)) : ClaimsKept s (s.whenRunning f) := by
  unfold whenRunning
  split
  · exact h
  · exact .same s

theorem answer_kept {kind : Nat} {dest : Dest} {a : Act} (h : ClaimsKept s a.state) :
    ClaimsKept s (answer kind dest a) := by
  obtain ⟨b, hb⟩ := answer_frame kind dest a
  rw [hb]
  exact h.andThen (.of_seating rfl)

/-- A request keeps the claims as its owner does, from the state with the host heard. -/
theorem request_kept {kind : MsgKind} {dest : Dest} {len : BodyLen} {act : State → Act}
    (h : ClaimsKept s.beginRequest (act s.beginRequest).state) : ClaimsKept s (s.request kind dest len act) := by
  have begun : ClaimsKept s s.beginRequest := .of_seating rfl
  refine whenRunning_kept (answer_kept ?_)
  cases len with
  | wrong => exact begun
  | fits => exact begun.trans h

/-- A request whose owner grants no seat keeps the claims. -/
theorem request_seats {kind : MsgKind} {dest : Dest} {len : BodyLen} {act : State → Act}
    (h : ∀ s, SeatsKept s (act s).state) : ClaimsKept s (s.request kind dest len act) := request_kept (h _).kept

theorem stateMessage_seats {berth vessel : Nat} {accepts : CallState → Bool} {act : Berth → Act}
    (h : ∀ b, accepts (s.call b).state = true → SeatsKept s (act b).state) :
    SeatsKept s (s.stateMessage berth vessel accepts act).state := by
  unfold stateMessage
  split
  · exact .same s
  · next b _ =>
    split
    · exact .same s
    · split
      · exact .same s
      · next haccepts =>
        split
        · exact .same s
        · exact h b (by simpa using haccepts)

/-! ### Call messages -/

variable (s)

/-- A record that does not board is replaced, with no claim on its call. -/
theorem setCall_idle (b : Berth) (k : Call) (h : (s.call b).state.isBoarding = false) : SeatsKept s (s.setCall b k) :=
  setCall_seats b fun hb => absurd (h.symm.trans hb) (by decide)

theorem actCallOpen_seats (berth vessel line capacity declared dwell : Nat) :
    SeatsKept s (s.actCallOpen berth vessel line capacity declared dwell).state := by
  unfold actCallOpen
  split
  · exact .same s
  · next b _ =>
    split
    · exact .same s
    · split
      · exact .same s
      · split
        · exact .same s
        · next hvacant =>
          dsimp only [enteredReply, Act.ok]
          refine (settle_seats _ _ _).after ((queueIf_seats _ _ _).after ((queue_seats _ _).after (setCall_idle s b _ ?_)))
          rw [not_not.mp hvacant]
          rfl

theorem actBoardStart_seats (berth vessel : Nat) : SeatsKept s (s.actBoardStart berth vessel).state := by
  refine stateMessage_seats fun b h => ?_
  have hstate : (s.call b).state = .alongside := of_decide_eq_true h
  dsimp only [enteredReply, Act.ok]
  rw [startBoarding_eq]
  have entered : SeatsKept s (s.setCall b { s.call b with state := .boarding, boardingStarted := s.stamp }) := by
    refine setCall_idle s b _ ?_
    rw [hstate]
    rfl
  exact (settle_seats _ _ _).after ((queueAll_seats _ _).after (entered.andSame rfl))

theorem actLastCall_seats (berth vessel : Nat) : SeatsKept s (s.actLastCall berth vessel).state := by
  refine stateMessage_seats fun b _ => ?_
  dsimp only [enteredReply, Act.ok]
  exact (settle_seats _ _ _).after (enterLastCall_seats s b _)

theorem actEnd_seats (reason : EndReason) (berth vessel : Nat) : SeatsKept s (s.actEnd reason berth vessel).state := by
  refine stateMessage_seats fun b _ => ?_
  dsimp only [enteredReply, Act.ok]
  exact (settle_seats _ _ _).after (endCall_seats s b _ _)

theorem actCallCollect_seats (berth vessel : Nat) : SeatsKept s (s.actCallCollect berth vessel).state := by
  refine stateMessage_seats fun b h => ?_
  have hstate : (s.call b).state = .ended := of_decide_eq_true h
  dsimp only [Act.ok]
  rw [collected_eq]
  refine (settle_seats _ _ _).after ((queueAll_seats _ _).after (setCall_idle s b _ ?_))
  rw [hstate]
  rfl

theorem actAboardAdjust_seats (berth vessel : Nat) (delta : Int) :
    SeatsKept s (s.actAboardAdjust berth vessel delta).state := by
  unfold actAboardAdjust
  split
  · exact .same s
  · refine stateMessage_seats fun b _ => ?_
    have hstate : (s.adjustedCall b delta).state = (s.call b).state := by
      unfold adjustedCall
      split <;> rfl
    dsimp only [Act.ok]
    rw [adjusted_eq]
    exact (settle_seats _ _ _).after ((queueAll_seats _ _).after (setCall_seats b fun h => hstate ▸ h))

theorem countReports_seats : SeatsKept s ((s.queueReport .b0).queueReport .b1) :=
  (queueIf_seats _ _ _).after (queueIf_seats s _ _)

/-! ### Gates and egress -/

theorem setService_seats (c : Chan) (flag : ServiceFlag) : SeatsKept s (s.setService c flag) := by
  unfold setService
  split
  · exact .same s
  · dsimp only
    refine (settle_seats _ _ _).after ?_
    split
    · exact (refusePending_seats _ c _).after (.of_seating rfl)
    · exact .of_seating rfl

theorem actChannelService_seats (channel : Nat) (value : Option ServiceFlag) :
    SeatsKept s (s.actChannelService channel value).state := by
  unfold actChannelService
  split
  · dsimp only [Act.ok]
    exact setService_seats s _ _
  · exact .same s

theorem releaseSeat_kept (c : Chan) (b : Berth) (force : Bool) : ClaimsKept s (s.releaseSeat c b force) := by
  have held := requestSeats_kept (ClaimsKept.same s) (staffRequest c force) fun _ => Nat.one_pos
  unfold releaseSeat
  dsimp only
  refine (settle_seats _ _ _).afterKept ?_
  split
  · exact held.andThen (markIfOver_seats _ b _)
  · exact held

theorem actChannelRelease_kept (channel : Nat) (force : Option Bool) :
    ClaimsKept s (s.actChannelRelease channel force).state := by
  unfold actChannelRelease
  split
  · split
    · exact .same s
    · split
      · exact .same s
      · dsimp only [Act.ok]
        exact releaseSeat_kept s _ _ _
  · exact .same s

theorem actChannelRestore_seats (target : RestoreTarget) : SeatsKept s (s.actChannelRestore target).state := by
  unfold actChannelRestore
  split
  · split
    · exact .same s
    · split
      · exact .same s
      · dsimp only [Act.ok]
        split
        · exact (settle_seats _ _ _).after (.of_seating rfl)
        · exact .same s
  · split
    · exact .same s
    · have unlatched : ∀ (t : State) (c : Chan), SeatsKept t (t.unlatch c) := fun _ _ => .of_seating rfl
      dsimp only [Act.ok]
      exact (settle_seats _ _ _).after (foldl_seats unlatched _ s)

theorem actEgressEnter_seats : SeatsKept s s.actEgressEnter.state := by
  unfold actEgressEnter
  split
  · exact .of_seating rfl
  · dsimp only [Act.ok]
    exact (settle_seats _ _ _).after (enterEgress_seats s _)

theorem actEgressClear_seats : SeatsKept s s.actEgressClear.state := by
  unfold actEgressClear
  split
  · exact .same s
  · split
    · exact .same s
    · split
      · exact .of_seating rfl
      · dsimp only [Act.ok]
        exact (settle_seats _ _ _).after (leaveEgress_seats s)

theorem evacuateOn_seats : SeatsKept s s.evacuateOn := by
  unfold evacuateOn
  dsimp only
  split
  · exact .of_seating rfl
  · exact (settle_seats _ _ _).after ((enterEgress_seats _ _).after (.of_seating rfl))

theorem holdRunsOut_seats : SeatsKept s s.holdRunsOut := by
  unfold holdRunsOut
  split
  · exact .same s
  · split
    · exact (settle_seats _ _ _).after (leaveEgress_seats s)
    · exact .of_seating rfl

theorem windowRunsOut_seats (c : Chan) : SeatsKept s (s.windowRunsOut c) := by
  unfold windowRunsOut
  split
  · exact (settleSelect_seats _ _ _).after (lapseHead_seats s c)
  · exact .same s

theorem suspensionRunsOut_seats (c : Chan) : SeatsKept s (s.suspensionRunsOut c) := by
  unfold suspensionRunsOut
  split
  · exact (settleSelect_seats _ _ _).after ((endClaims_seats _ c _).after (.of_seating rfl))
  · exact .same s

theorem obstructionRunsOut_seats (c : Chan) : SeatsKept s (s.obstructionRunsOut c) := by
  unfold obstructionRunsOut
  split
  · exact .same s
  · exact (queue_seats _ _).after (.of_seating rfl)

theorem countPassage_seats (c : Chan) (b : Berth) (d : Direction) : SeatsKept s (s.countPassage c b d) := by
  unfold countPassage
  split
  · unfold countOutward
    dsimp only
    split <;> exact setCall_seats b id
  · split
    · rw [unpaidBoarding_eq]
      have marked : SeatsKept s (s.setCall b ((s.call b).unpaidBoarded.markedAt (s.held b))) := setCall_seats b id
      exact (queueAll_seats _ _).after (marked.andSame rfl)
    · next k ks hlive => exact consumeSeat_seats s c b hlive

theorem routePassage_seats (c : Chan) (d : Direction) : SeatsKept s (s.routePassage c d) := by
  unfold routePassage
  split
  · exact .of_seating rfl
  · dsimp only
    split
    · exact .of_seating rfl
    · split
      · exact (countPassage_seats _ c _ d).after (.of_seating rfl)
      · exact .of_seating rfl

theorem beamMoves_seats (c : Chan) (beam : Beam) (broken : Bool) : SeatsKept s (s.beamMoves c beam broken) := by
  unfold beamMoves
  split
  · exact .same s
  · dsimp only
    refine (settleSelect_seats _ _ _).after ?_
    split
    · exact .of_seating rfl
    · exact (routePassage_seats _ c _).after (.of_seating rfl)

/-! ### The bus, the clock and the tables -/

theorem actRestart_seats : SeatsKept s s.actRestart.state := by
  unfold actRestart
  split <;> exact .of_seating rfl

theorem activatePending_seats (cause : TariffCause) : SeatsKept s (s.activatePending cause) := by
  unfold activatePending
  split
  · split
    · exact (queue_seats _ _).after (.of_seating rfl)
    · exact .same s
  · exact .same s

theorem actClockSet_seats (day secs : Nat) : SeatsKept s (s.actClockSet day secs).state := by
  unfold actClockSet
  split
  · exact .same s
  · exact (activatePending_seats _ _).after (.of_seating rfl)

theorem actLoadBegin_seats (kind : Option LoadKind) (version count : Nat) (crc : BitVec 16) :
    SeatsKept s (s.actLoadBegin kind version count crc).state := by
  unfold actLoadBegin
  split
  · exact .same s
  · split
    · exact .same s
    · dsimp only [Act.ok]
      split
      · exact .of_seating rfl
      · split <;> exact .of_seating rfl

theorem actLoadSegment_seats (len : BodyLen) (index : Nat) (entries : List LoadEntry) :
    SeatsKept s (s.actLoadSegment len index entries).state := by
  unfold actLoadSegment
  split
  · exact .same s
  · split
    · exact .of_seating rfl
    · split
      · exact .same s
      · split
        · exact .same s
        · dsimp only
          split <;> exact .of_seating rfl

theorem putTable_seats (l : Load) : SeatsKept s (s.putTable l).1 := by
  unfold putTable
  dsimp only
  split
  · exact .of_seating rfl
  · exact .of_seating rfl
  · split
    · exact (queue_seats _ _).after (.of_seating rfl)
    · exact .of_seating rfl

theorem actLoadCommit_seats : SeatsKept s s.actLoadCommit.state := by
  unfold actLoadCommit
  split
  · exact .same s
  · split
    · exact .of_seating rfl
    · exact putTable_seats s _

theorem actLoadAbort_seats : SeatsKept s s.actLoadAbort.state := by
  unfold actLoadAbort
  split <;> exact .of_seating rfl

theorem loadRunsOut_seats : SeatsKept s s.loadRunsOut := by
  unfold loadRunsOut
  split
  · exact .same s
  · split
    · exact (queue_seats _ _).after (.of_seating rfl)
    · exact .same s

theorem actDenyEdit_seats (len : BodyLen) (op : Option DenyOp) (items : List DenyItem) :
    SeatsKept s (s.actDenyEdit len op items).state := by
  unfold actDenyEdit
  split
  · exact .same s
  · split
    · exact .same s
    · split
      · exact .same s
      · split
        · dsimp only
          split <;> exact .of_seating rfl
        · exact .of_seating rfl

/-- The allotment table replaced by one whose block sizes are in range. -/
theorem setAllot_seats {l : List Allotment} (h : BlocksInRange s → ∀ a ∈ l, within a.block 1 9 = true) :
    SeatsKept s (s.setAllot l) := .of_blocks rfl rfl rfl fun hs => ⟨h hs, hs.work, hs.slot⟩

/-- An accepted ALLOT_SET gives a block size of 1 to 9 seats (R161). -/
theorem actAllotSet_seats (token : CardId) (line total block : Nat) (expiry : Option ClockTime) :
    SeatsKept s (s.actAllotSet token line total block expiry).state := by
  unfold actAllotSet
  split
  · exact .same s
  · next hfields =>
    have hblock : within block 1 9 = true := by
      have hok : allotFieldsOk token line total block expiry = true := by simpa using hfields
      simp only [allotFieldsOk, Bool.and_eq_true] at hok
      obtain ⟨⟨-, hblock⟩, -⟩ := hok
      exact hblock
    split
    · split
      · exact .same s
      · refine setAllot_seats s fun hs a ha => ?_
        rcases List.mem_append.mp ha with ha | ha
        · exact hs.allot a ha
        · obtain rfl := List.mem_singleton.mp ha
          exact hblock
    · split
      · exact .same s
      · refine setAllot_seats s fun hs a ha => ?_
        obtain ⟨x, hx, rfl⟩ := List.mem_map.mp ha
        split
        · exact hblock
        · exact hs.allot x hx

theorem actAllotRemove_seats (token : CardId) : SeatsKept s (s.actAllotRemove token).state := by
  unfold actAllotRemove
  split
  · exact .same s
  · split
    · exact .same s
    · split
      · exact .same s
      · exact setAllot_seats s fun hs a ha => hs.allot a (List.mem_filter.mp ha).1

/-! ### Settings (R52, R181 to R184) -/

theorem berthVacant_of_bothVacant (h : s.bothVacant = true) (b : Option Berth) : s.berthVacant b = true := by
  cases b with
  | none => rfl
  | some b => exact decide_eq_true (bothVacant_iff.mp h b)

/-- A channel whose berth changes had no claim, since no call at its old berth was open. -/
theorem applySettings_kept {new : Settings}
    (h : ∀ c, new.berthOf.get c ≠ s.berthOf c → s.berthVacant (s.berthOf c) = true) :
    ClaimsKept s (s.applySettings new) := by
  unfold applySettings
  split
  · exact .same s
  · refine (settle_seats _ _ _).afterKept ((refuseBySettings_seats _ _).afterKept ⟨id, id, fun hs c k hk => ?_⟩)
    obtain ⟨hb, hboarding⟩ := hs c k hk
    refine ⟨?_, hboarding⟩
    by_contra hne
    have hvacant := h c fun he => hne (he.trans hb)
    rw [hb] at hvacant
    have hstate : (s.call k.berth).state = .vacant := of_decide_eq_true hvacant
    rw [hstate] at hboarding
    cases hboarding

/-- A setting put by number changes the berth of the channel alone that its number names (Table 12-1). -/
theorem put_berthOf {k m : Settings} {n : Nat} {v : SettingValue} (h : k.put n v = some m) {c : Chan}
    (hc : m.berthOf.get c ≠ k.berthOf.get c) : n = 3 + c.num := by
  unfold Settings.put at h
  split at h
  case h_32 => cases h
  all_goals obtain ⟨x, hx, rfl⟩ := Option.map_eq_some_iff.mp h
  case h_3 | h_4 | h_5 | h_6 =>
    dsimp only at hc
    rw [PerChan.get_set] at hc
    split at hc
    · next he =>
      subst he
      rfl
    · exact absurd rfl hc
  all_goals exact absurd rfl hc

theorem actSettingsSet_kept (number : Nat) (value : SettingValue) :
    ClaimsKept s (s.actSettingsSet number value).state := by
  unfold actSettingsSet
  split
  · exact .same s
  · split
    · next new before hput _ =>
      split
      · exact .same s
      · next hlocked =>
        refine applySettings_kept s fun c hc => ?_
        have hn := berthSettingChan_eq_some.mpr (put_berthOf hput hc)
        unfold settingLocked at hlocked
        rw [hn] at hlocked
        have hvacant : s.berthVacant (s.berthOf c) = true ∧ s.berthVacant (new.berthOf.get c) = true := by
          simpa using hlocked
        exact hvacant.1
    · exact .same s

theorem actSettingsStore_seats : SeatsKept s s.actSettingsStore.state := by
  unfold actSettingsStore
  split
  · exact .same s
  · split <;> exact .of_seating rfl

theorem endStore_seats (readBack : StoredImage) : SeatsKept s (s.endStore readBack) := by
  unfold endStore
  split
  · exact .same s
  · exact (queue_seats _ _).after (.of_seating rfl)

theorem bothVacant_of_replaceRefusal (h : s.replaceRefusal = none) : s.bothVacant = true := by
  unfold replaceRefusal at h
  split at h
  · cases h
  · split at h
    · cases h
    · next hvacant => simpa using hvacant

theorem actSettingsReload_kept : ClaimsKept s s.actSettingsReload.state := by
  unfold actSettingsReload
  split
  · exact .same s
  · next hfree =>
    have applied : ∀ fault new, ClaimsKept s ((s.setFault fault).applySettings new) := fun fault new =>
      ClaimsKept.trans (t := s.setFault fault) (.of_seating rfl) <| applySettings_kept _ fun c _ =>
        berthVacant_of_bothVacant s (bothVacant_of_replaceRefusal s hfree) (s.berthOf c)
    split
    · exact applied false _
    · exact applied true _

theorem actSettingsDefault_kept : ClaimsKept s s.actSettingsDefault.state := by
  unfold actSettingsDefault
  split
  · exact .same s
  · next hfree =>
    exact applySettings_kept s fun c _ => berthVacant_of_bothVacant s (bothVacant_of_replaceRefusal s hfree) _

/-! ### Referrals and desk checks -/

theorem slot_of_slotWithId {id : Nat} {i : Slot} {r : Referral} (h : s.slotWithId id = some (i, r)) :
    s.slot i = some r := by
  unfold slotWithId at h
  split at h
  · next h0 =>
    split at h
    · cases h
      exact h0
    · split at h
      · next h1 =>
        split at h
        · cases h
          exact h1
        · cases h
      · cases h
  · next h1 =>
    split at h
    · cases h
      exact h1
    · cases h
  · cases h

theorem actReferAnswer_kept (id : Nat) (verdict : Option AnswerVerdict) (fare extra : Nat) :
    ClaimsKept s (s.actReferAnswer id verdict fare extra).state := by
  unfold actReferAnswer
  split
  · exact .same s
  · split
    · exact .same s
    · split
      · exact .same s
      · next i r hslot =>
        split
        · exact .same s
        · next hfits =>
          dsimp only [Act.ok]
          exact (answerReferral_kept (slot_of_slotWithId s hslot) (Bool.eq_false_iff.mpr hfits)).andThen
            (settle_seats _ _ _)

theorem actDeskCheck_seats (line : Nat) (card : List Octet) : SeatsKept s (s.actDeskCheck line card).state := by
  unfold actDeskCheck
  split
  · exact .same s
  · split
    · exact .same s
    · split
      · exact .same s
      · dsimp only [Act.ok]
        exact (settleSelect_seats _ _ _).after (arriveDesk_seats s _ _)

/-! ### Reader lines -/

theorem attachAnew_seats (c : Chan) : SeatsKept s (s.attachAnew c) := (sendSetup_seats s c).andSame rfl

theorem hearReader_seats (c : Chan) {take : State → State} (h : ∀ s, SeatsKept s (take s)) :
    SeatsKept s (s.hearReader c take) := by
  unfold hearReader
  split
  · exact (attachAnew_seats _ c).after (.of_seating rfl)
  · exact (h _).after (.of_seating rfl)
  · exact (h _).after (.of_seating rfl)

theorem whenUp_seats (c : Chan) {take : State → State} (h : SeatsKept s (take s)) : SeatsKept s (s.whenUp c take) := by
  unfold whenUp
  split
  · exact h
  · exact .same s
  · exact .same s

theorem withdrawn_seats (c : Chan) : SeatsKept s ((s.withdrawPresentation c).endWriteUnknown c) :=
  (endWriteUnknown_seats _ c).after (withdrawPresentation_seats s c)

theorem takeReady_seats (c : Chan) : SeatsKept s (s.takeReady c) := by
  unfold takeReady
  split
  · exact (settle_seats _ _ _).after (.of_seating rfl)
  · exact (select_seats _).after <| (attachAnew_seats _ c).after <| (settle_seats _ _ _).after <|
      (withdrawn_seats s c).andSame rfl
  · exact .same s

theorem takePresent_seats (c : Chan) (card : Card) : SeatsKept s (s.takePresent c card) := by
  unfold takePresent
  exact (settleSelect_seats _ _ _).after <| (arrive_seats _ c card).after <|
    (withdrawn_seats s c).andSame rfl

theorem takeWithdraw_seats (c : Chan) (id : CardId) : SeatsKept s (s.takeWithdraw c id) := by
  unfold takeWithdraw
  split
  · exact .same s
  · split
    · exact withdrawPresentation_seats s c
    · exact .same s

theorem takeWriteResult_seats (c : Chan) (tag : Nat) (ok : Bool) : SeatsKept s (s.takeWriteResult c tag ok) := by
  unfold takeWriteResult
  split
  · exact .same s
  · split
    · exact .same s
    · dsimp only
      refine (settleSelect_seats _ _ _).after ?_
      split
      · exact (writeDone_seats _ c tag).after (.of_seating rfl)
      · exact (writeFailed_seats _ c tag).after (.of_seating rfl)

theorem frameSent_seats (c : Chan) : SeatsKept s (s.frameSent c) := by
  unfold frameSent
  split
  · exact .same s
  · split
    · exact .of_seating rfl
    · next r rs _ =>
      obtain ⟨k, p, h⟩ := startRecord_frame (s.setPort c { s.port c with sending := none, waiting := rs }) c r
      rw [h]
      exact .of_seating rfl

theorem attachRunsOut_seats (c : Chan) : SeatsKept s (s.attachRunsOut c) := by
  unfold attachRunsOut
  split
  · exact attachAnew_seats s c
  · exact .same s

theorem lineDown_seats (c : Chan) : SeatsKept s (s.lineDown c) := by
  unfold lineDown
  dsimp only
  split <;> exact .of_seating rfl

theorem inactivityRunsOut_seats (c : Chan) : SeatsKept s (s.inactivityRunsOut c) := by
  unfold inactivityRunsOut
  dsimp only
  split
  · exact .same s
  · exact (settleSelect_seats _ _ _).after <| (withdrawn_seats _ c).after <| (lineDown_seats _ c).after (queue_seats s _)

theorem writeRunsOut_seats (c : Chan) : SeatsKept s (s.writeRunsOut c) := by
  unfold writeRunsOut
  split
  · exact .same s
  · split
    · exact (settleSelect_seats _ _ _).after (endWriteUnknown_seats s c)
    · exact .same s

/-! ### Start-up and the passing of time -/

theorem cleared_claimsOf (cause : StartCause) (found : Found) (c : Chan) : (s.cleared cause found).claimsOf c = .none :=
  PerChan.get_same ..

/-- A start-up begins with no claim, no allotment, no work and no referral (R185). -/
theorem cleared_kept (cause : StartCause) (found : Found) : ClaimsKept s (s.cleared cause found) where
  limited _ c := by
    rw [cleared_claimsOf]
    exact Nat.zero_le _
  unpassed _ := by
    refine claimsUnpassed_iff.mpr ⟨fun c k hk => ?_, fun a ha => ?_, fun w hw => ?_, fun i r hr => ?_⟩
    · rw [cleared_claimsOf] at hk
      exact absurd hk List.not_mem_nil
    · exact absurd ha List.not_mem_nil
    · cases hw
    · cases i <;> cases hr
  onBoarding _ c k hk := by
    rw [cleared_claimsOf] at hk
    exact absurd hk List.not_mem_nil

theorem firstDerivation_seats (c : Chan) : SeatsKept s (s.firstDerivation c) := .of_seating rfl

theorem startUp_kept (cause : StartCause) (found : Found) : ClaimsKept s (s.startUp cause found) := by
  unfold startUp
  dsimp only
  refine (firstDerivation_seats _ .c3).afterKept <| (firstDerivation_seats _ .c2).afterKept <|
    (firstDerivation_seats _ .c1).afterKept <| (firstDerivation_seats _ .c0).afterKept ?_
  split
  · exact (cleared_kept s cause found).andThen (enterEgress_seats _ _)
  · exact cleared_kept s cause found

/-- The referrals held change, but not in their block sizes. -/
theorem slotsChanged_blocks {s t : State} {f : Referral → Referral} (hslot : ∀ i, t.slot i = (s.slot i).map f)
    (hf : ∀ r, (f r).block = r.block) (hs : BlocksInRange s) : ∀ i r, t.slot i = some r → within r.block 1 9 = true := by
  intro i r hr
  rw [hslot] at hr
  obtain ⟨x, hx, rfl⟩ := Option.map_eq_some_iff.mp hr
  rw [hf]
  exact hs.slot i x hx

/-- A POLL marks the referrals held as delivered (R152). -/
theorem actPoll_seats : SeatsKept s s.actPoll.state := by
  refine .of_blocks rfl rfl rfl fun hs => ⟨hs.allot, hs.work, ?_⟩
  refine slotsChanged_blocks (f := fun r => { r with delivered := true }) (fun i => ?_) (fun _ => rfl) hs
  cases i <;> rfl

theorem windowLater_follow (ks : List Claim) : ClaimsFollow ks (windowLater ks) := by
  cases ks with
  | nil => exact .of_subset fun _ => id
  | cons k ks =>
    intro x hx
    rcases List.mem_cons.mp hx with rfl | hx
    · exact ⟨k, List.mem_cons_self, rfl, id⟩
    · exact ⟨x, List.mem_cons_of_mem _ hx, .same x⟩

theorem claimsLater_follow (c : Chan) : (s.claimsLater c).count = (s.claimsOf c).count ∧
    ClaimsFollow (s.claimsOf c).every (s.claimsLater c).every := by
  unfold claimsLater
  split
  · exact ⟨rfl, .of_subset fun _ => id⟩
  · refine ⟨?_, ClaimsFollow.live (windowLater_follow _)⟩
    unfold ChannelClaims.count
    cases (s.claimsOf c).live <;> rfl

theorem tick_claimsOf (c : Chan) : s.tick.claimsOf c = s.claimsLater c := PerChan.get_of ..

theorem tick_seats : SeatsKept s s.tick where
  count c := by rw [tick_claimsOf, (claimsLater_follow s c).1]
  claim c := by rw [tick_claimsOf]; exact (claimsLater_follow s c).2
  boarding _ _ _ hs := hs
  berth _ := rfl
  blocks hs := ⟨hs.allot, hs.work,
    slotsChanged_blocks (f := Referral.later) (fun i => by cases i <;> rfl) (fun _ => rfl) hs⟩

theorem idle_seats : SeatsKept s s.idle := by
  unfold idle
  split
  · exact tick_seats s
  · exact .same s

end State

open State

/-- Every command keeps the conditions on claims. -/
theorem exec_kept {i : Instr} {s t : State} (h : exec i s = .next t) : ClaimsKept s t := by
  cases i <;> obtain rfl := Host.Outcome.next.inj h
  case powerOn found => exact startUp_kept s _ found
  case supplyDip => exact whenRunning_kept (.of_seating rfl)
  case supplyRecovered found =>
    split
    · exact startUp_kept s _ found
    · exact .same s
  case commandStartUp found =>
    refine whenRunning_kept ?_
    split
    · exact startUp_kept s _ found
    · exact .same s
  case poll => exact request_seats actPoll_seats
  case status => exact request_seats fun _ => .same _
  case statusClear => exact request_seats fun _ => .of_seating rfl
  case restart => exact request_seats actRestart_seats
  case unknownKind kind => exact whenRunning_kept (.of_seating rfl)
  case broadcastIgnored => exact whenRunning_kept (.of_seating rfl)
  case busFrameDiscarded why => exact whenRunning_kept (by cases why <;> exact .of_seating rfl)
  case clockSet day secs => exact request_seats fun s => actClockSet_seats s day secs
  case clockSecond =>
    refine whenRunning_kept ?_
    split
    · exact .same s
    · exact (activatePending_seats _ _).afterKept (.of_seating rfl)
  case callOpen => exact request_seats fun s => actCallOpen_seats s _ _ _ _ _ _
  case boardStart => exact request_seats fun s => actBoardStart_seats s _ _
  case lastCall => exact request_seats fun s => actLastCall_seats s _ _
  case castOff => exact request_seats fun s => actEnd_seats s _ _ _
  case callCancel => exact request_seats fun s => actEnd_seats s _ _ _
  case callQuery => exact request_seats fun s => by unfold actCallQuery; split <;> exact .same s
  case callCollect => exact request_seats fun s => actCallCollect_seats s _ _
  case aboardAdjust => exact request_seats fun s => actAboardAdjust_seats s _ _ _
  case channelQuery => exact request_seats fun s => by unfold actChannelQuery; split <;> exact .same s
  case channelService => exact request_seats fun s => actChannelService_seats s _ _
  case channelRelease => exact request_kept (actChannelRelease_kept _ _ _)
  case channelRestore => exact request_seats fun s => actChannelRestore_seats s _
  case egressEnter => exact request_seats actEgressEnter_seats
  case egressClear => exact request_seats actEgressClear_seats
  case loadBegin => exact request_seats fun s => actLoadBegin_seats s _ _ _ _
  case loadSegment => exact request_seats fun s => actLoadSegment_seats s _ _ _
  case loadCommit => exact request_seats actLoadCommit_seats
  case loadAbort => exact request_seats actLoadAbort_seats
  case denyEdit => exact request_seats fun s => actDenyEdit_seats s _ _ _
  case tableQuery len subject =>
    refine request_seats fun s => ?_
    unfold actTableQuery
    split
    · exact .same s
    · exact .same s
    · split <;> exact .same s
    · split <;> exact .same s
    · exact .same s
    · exact .same s
  case allotSet => exact request_seats fun s => actAllotSet_seats s _ _ _ _ _
  case allotRemove => exact request_seats fun s => actAllotRemove_seats s _
  case allotQuery => exact request_seats fun s => by unfold actAllotQuery; split <;> split <;> exact .same s
  case referAnswer => exact request_kept (actReferAnswer_kept _ _ _ _ _)
  case deskCheck => exact request_seats fun s => actDeskCheck_seats s _ _
  case settingsGet len number =>
    refine request_seats fun s => ?_
    unfold actSettingsGet
    split
    · exact .same s
    · split <;> exact .same s
  case settingsSet => exact request_kept (actSettingsSet_kept _ _ _)
  case settingsStore => exact request_seats actSettingsStore_seats
  case storeWriteEnd => exact whenRunning_kept (endStore_seats s _).kept
  case settingsReload => exact request_kept (actSettingsReload_kept _)
  case settingsDefault => exact request_kept (actSettingsDefault_kept _)
  case present c body =>
    refine whenRunning_kept (hearReader_seats s c fun u => whenUp_seats u c ?_).kept
    split
    · exact .same u
    · exact takePresent_seats u c _
  case withdraw c body =>
    refine whenRunning_kept (hearReader_seats s c fun u => whenUp_seats u c ?_).kept
    split
    · exact .same u
    · exact takeWithdraw_seats u c _
  case writeResult c body =>
    refine whenRunning_kept (hearReader_seats s c fun u => whenUp_seats u c ?_).kept
    split
    · exact .same u
    · exact takeWriteResult_seats u c _ _
  case alive c => exact whenRunning_kept (hearReader_seats s c .same).kept
  case ready c => exact whenRunning_kept (hearReader_seats s c fun u => takeReady_seats u c).kept
  case readerFrameDiscarded c why =>
    refine whenRunning_kept ?_
    cases why with
    | damaged => exact .of_seating rfl
    | wrongKind => exact (hearReader_seats s c .same).kept
    | malformed => exact (hearReader_seats s c .same).kept
  case readerFrameSent c => exact whenRunning_kept (frameSent_seats s c).kept
  case attachTimerExpiry c => exact whenRunning_kept (attachRunsOut_seats s c).kept
  case readerInactivityExpiry c => exact whenRunning_kept (inactivityRunsOut_seats s c).kept
  case writeTimerExpiry c => exact whenRunning_kept (writeRunsOut_seats s c).kept
  case validationCompletion => exact whenRunning_kept (complete_kept s)
  case referralTimerExpiry i => exact whenRunning_kept (referralRunsOut_kept s i)
  case supervisionTimerExpiry => exact whenRunning_kept (supervisionRunsOut_kept s)
  case loadInactivityExpiry => exact whenRunning_kept (loadRunsOut_seats s).kept
  case dwellTimerExpiry b =>
    refine whenRunning_kept ?_
    split
    · exact ((settle_seats _ _ _).after (enterLastCall_seats s b _)).kept
    · exact .same s
  case lastCallTimerExpiry b =>
    refine whenRunning_kept ?_
    split
    · exact ((settle_seats _ _ _).after (endCall_seats s b _ _)).kept
    · exact .same s
  case reportTimerExpiry =>
    refine whenRunning_kept ?_
    split
    · exact .same s
    · split
      · exact .of_seating rfl
      · have reported := countReports_seats s
        generalize (s.queueReport .b0).queueReport .b1 = u at reported
        exact reported.kept.andThen (.of_seating rfl)
  case passWindowExpiry c => exact whenRunning_kept (windowRunsOut_seats s c).kept
  case suspensionTimerExpiry c => exact whenRunning_kept (suspensionRunsOut_seats s c).kept
  case obstructionTimerExpiry c => exact whenRunning_kept (obstructionRunsOut_seats s c).kept
  case minimumHoldExpiry => exact whenRunning_kept (holdRunsOut_seats s).kept
  case beamEvent c beam broken => exact whenRunning_kept (beamMoves_seats s c beam broken).kept
  case rampUnsafe c => exact whenRunning_kept ((settle_seats _ _ _).afterKept (.of_seating rfl))
  case rampSafe c => exact whenRunning_kept ((settle_seats _ _ _).afterKept (.of_seating rfl))
  case evacuateActive => exact whenRunning_kept (evacuateOn_seats s).kept
  case evacuateInactive => exact whenRunning_kept (.of_seating rfl)
  case busReplySent => exact whenRunning_kept (by split <;> exact .of_seating rfl)

/-- Every step keeps the conditions on claims. -/
theorem step_kept {s t : State} (h : step s = .next t) : ClaimsKept s t := by
  unfold step at h
  split at h
  · obtain rfl := Host.Outcome.next.inj h
    exact (idle_seats s).kept
  · next rest _ =>
    have taken : ClaimsKept s { s with pending := rest } := .of_seating rfl
    exact taken.trans (exec_kept h)

end Sys2Proof.Machine

open Sys2Proof.Machine

/-- Settles O8: only a grant adds a claim, and it tests the room, the seats and the call of the claim it enters. -/
theorem claimsStaySound : Obligations.ClaimsStaySound := by
  intro s t h
  have kept := step_kept h
  exact ⟨kept.limited, kept.unpassed, kept.onBoarding⟩
end

section
/-! A reader line that comes up, is attached anew or is lost: the presentation withdrawn and the write ended with its
outcome unknown, and what the event's end leaves of a line that is not UP. -/

namespace Sys2Proof.Machine.State

/-! ### A presentation withdrawn (R84, R103, R157) -/

/-- The blocks that hold a presentation of a channel are told of its withdrawal: no slot holds it, and work for it is
marked. `held` is whether one was outstanding. -/
structure Withdraws (s t : State) (c : Chan) (held : Bool) : Prop where
  slots : held = true → ∀ i r, t.slot i = some r → r.channel ≠ c
  work : ∀ w, s.engine.work = some w →
    t.engine.work = some { w with withdrawn := w.withdrawn || (held && decide (w.requester = .channel c)) }

variable {s : State} {c : Chan}

theorem dropReferral_slot (s : State) (c : Chan) (i j : Slot) (r : Referral)
    (h : (s.dropReferral c i).slot j = some r) : s.slot j = some r ∧ (j = i → r.channel ≠ c) := by
  unfold dropReferral at h
  split at h
  · next hnone =>
    refine ⟨h, fun hj => ?_⟩
    rw [hj, hnone] at h
    cases h
  · next x hx =>
    split at h
    · rw [slot_setSlot] at h
      split at h
      · cases h
      · next hj => exact ⟨h, fun e => absurd e hj⟩
    · next hc =>
      refine ⟨h, fun hj => ?_⟩
      rw [hj, hx] at h
      cases h
      exact hc

theorem markWithdrawn_work {w : Work} (h : s.engine.work = some w) : (s.markWithdrawn c).engine.work =
    some { w with withdrawn := w.withdrawn || decide (w.requester = .channel c) } := by
  unfold markWithdrawn
  rw [h]
  dsimp only
  split
  · next hc => rw [decide_eq_true hc, Bool.or_true]
  · next hc =>
    rw [decide_eq_false hc, Bool.or_false]
    exact h

theorem dropReferral_work (s : State) (c : Chan) (i : Slot) : (s.dropReferral c i).engine.work = s.engine.work := by
  obtain ⟨x, y, h⟩ := dropReferral_frame s c i
  rw [h]

theorem withdrawPresentation_withdraws (s : State) (c : Chan) :
    s.Withdraws (s.withdrawPresentation c) c (s.port c).outstanding.isSome := by
  unfold withdrawPresentation
  split
  · next hnone =>
    rw [hnone]
    exact ⟨nofun, fun w hw => by simpa using hw⟩
  · next card hcard =>
    rw [hcard]
    dsimp only
    refine ⟨fun _ i r hr => ?_, fun w hw => ?_⟩
    · obtain ⟨hr, h1⟩ := dropReferral_slot _ c .s1 i r hr
      obtain ⟨-, h0⟩ := dropReferral_slot _ c .s0 i r hr
      cases i
      · exact h0 rfl
      · exact h1 rfl
    · rw [dropReferral_work, dropReferral_work]
      exact markWithdrawn_work hw

theorem withdrawPresentation_port (s : State) (c d : Chan) : (s.withdrawPresentation c).port d =
    if d = c then { s.port c with outstanding := none } else s.port d := by
  unfold withdrawPresentation
  split
  · next hnone =>
    split
    · next hd => rw [hd, ← hnone]
    · rfl
  · dsimp only
    obtain ⟨w, x, y, h⟩ := tellWithdrawn_frame
      { s.setPort c { s.port c with outstanding := none } with
        arbiter := { s.arbiter with places := s.arbiter.places.set c none } } c
    refine (congrArg (fun t : State => t.port d) h).trans ?_
    exact port_setPort ..

/-! ### A write ended with its outcome unknown (R38, R86) -/

/-- The end of the write awaited on a channel with its outcome unknown: the claim of its tag goes, with its seats
returned and an UNCERTAIN entry; where there is none, nothing changes. -/
structure EndsUnknown (s t : State) (c : Chan) (awaited : Option AwaitedWrite) : Prop where
  others : ∀ d, d ≠ c → t.claimsOf d = s.claimsOf d
  live : (t.claimsOf c).live = (s.claimsOf c).live
  cancelled : ∀ w, awaited = some w → ∀ xs k ys, (s.claimsOf c).provisional = xs ++ k :: ys →
    (∀ x ∈ xs, x.tag ≠ some w.tag) → k.tag = some w.tag →
    (t.claimsOf c).provisional = xs ++ ys ∧ t.tables.allot = allotReturned s.tables.allot k ∧
      t.engine.journey = s.journeyUnknown c s.engine.journey k
  unclaimed : (∀ w, awaited = some w → ∀ k ∈ (s.claimsOf c).provisional, k.tag ≠ some w.tag) →
    t.claims = s.claims ∧ t.tables = s.tables ∧ t.engine.journey = s.engine.journey

theorem writeUnknown_found {tag : Nat} {k : Claim} {rest : List Claim}
    (h : takeTag tag (s.claimsOf c).provisional = some (k, rest)) : s.writeUnknown c tag =
      (s.setClaims c { s.claimsOf c with provisional := rest }).withLists
        (allotReturned s.tables.allot k) (s.journeyUnknown c s.engine.journey k) := by
  unfold writeUnknown
  rw [h]
  exact unknownEffects_eq _ c k

theorem writeUnknown_ends (s : State) (c : Chan) (w : AwaitedWrite) :
    s.EndsUnknown (s.writeUnknown c w.tag) c (some w) := by
  have unclaimed : (∀ v, some w = some v → ∀ k ∈ (s.claimsOf c).provisional, k.tag ≠ some v.tag) →
      s.writeUnknown c w.tag = s := fun h => writeUnknown_none (takeTag_none (h w rfl))
  have kept : (∀ d, d ≠ c → (s.writeUnknown c w.tag).claimsOf d = s.claimsOf d) ∧
      ((s.writeUnknown c w.tag).claimsOf c).live = (s.claimsOf c).live := by
    cases htake : takeTag w.tag (s.claimsOf c).provisional with
    | none =>
      rw [writeUnknown_none htake]
      exact ⟨fun _ _ => rfl, rfl⟩
    | some found =>
      rw [writeUnknown_found htake]
      refine ⟨fun d hd => (claimsOf_setClaims ..).trans (if_neg hd), ?_⟩
      change ((s.setClaims c _).claimsOf c).live = _
      rw [claimsOf_setClaims, if_pos rfl]
  refine ⟨kept.1, kept.2, fun v hv xs k ys hclaims hxs hk => ?_, fun h => ?_⟩
  · obtain rfl := Option.some.inj hv
    have htake : takeTag w.tag (s.claimsOf c).provisional = some (k, xs ++ ys) := by
      rw [hclaims]
      exact takeTag_append hxs hk
    rw [writeUnknown_found htake]
    exact ⟨congrArg ChannelClaims.provisional ((claimsOf_setClaims ..).trans (if_pos rfl)), rfl, rfl⟩
  · rw [unclaimed h]
    exact ⟨rfl, rfl, rfl⟩

theorem endWriteUnknown_ends (s : State) (c : Chan) : s.EndsUnknown (s.endWriteUnknown c) c (s.port c).awaited := by
  unfold endWriteUnknown
  split
  · next hnone =>
    rw [hnone]
    exact ⟨fun _ _ => rfl, rfl, nofun, fun _ => ⟨rfl, rfl, rfl⟩⟩
  · next w hw =>
    rw [hw]
    have ended := writeUnknown_ends (s.setPort c { s.port c with awaited := none }) c w
    exact ⟨ended.others, ended.live, ended.cancelled, ended.unclaimed⟩

theorem endWriteUnknown_port (s : State) (c d : Chan) : (s.endWriteUnknown c).port d =
    if d = c then { s.port c with awaited := none } else s.port d := by
  unfold endWriteUnknown
  split
  · next hnone =>
    split
    · next hd => rw [hd, ← hnone]
    · rfl
  · next w _ =>
    obtain ⟨k, l, j, h⟩ := writeUnknown_frame (s.setPort c { s.port c with awaited := none }) c w.tag
    rw [h]
    exact port_setPort ..

/-! ### A line that leaves its reader (R80, R81) -/

/-- A state of an event in which a reader is attached anew or lost: the port of its channel
is `p`, its presentation and its awaited write have ended, and no other line, no gate and no call is changed. -/
structure Leaves (s v : State) (c : Chan) (p : Port) : Prop where
  frame : v = { s with
    claims := v.claims
    tables := { s.tables with allot := v.tables.allot }
    engine := { s.engine with
      work := v.engine.work
      journey := v.engine.journey
      slot0 := v.engine.slot0
      slot1 := v.engine.slot1 }
    notices := v.notices
    arbiter := v.arbiter
    channels := v.channels
    ports := v.ports }
  port : v.port c = p
  lines : ∀ d, d ≠ c → (s.port d).SameLine (v.port d)
  gate : ∀ d, (s.chan d).SameGate (v.chan d)
  ends : s.EndsUnknown v c (s.port c).awaited
  withdraws : s.Withdraws v c (s.port c).outstanding.isSome

/-- The presentation and the awaited write of a channel end, on a state whose port of the channel is `p`, and which
differs from the state found in the reader lines and the channels alone. -/
theorem ended_leaves (s : State) {c : Chan} (q : NoticeQueue) (k : PerChan Channel) {p : Port}
    (hgate : ∀ d, (s.chan d).SameGate (k.get d)) (hawaited : p.awaited = (s.port c).awaited)
    (houtstanding : p.outstanding = (s.port c).outstanding) :
    s.Leaves ((({ s with notices := q, channels := k, ports := s.ports.set c p } : State).withdrawPresentation
      c).endWriteUnknown c) c { p with outstanding := none, awaited := none } := by
  generalize hu : ({ s with notices := q, channels := k, ports := s.ports.set c p } : State) = u
  have hport : ∀ d, u.port d = if d = c then p else s.port d := fun d => by
    rw [← hu]
    exact PerChan.get_set ..
  have hself : u.port c = p := (hport c).trans (if_pos rfl)
  have withdrawn := withdrawPresentation_withdraws u c
  have ends := endWriteUnknown_ends (u.withdrawPresentation c) c
  have hports := endWriteUnknown_port (u.withdrawPresentation c) c
  rw [withdrawPresentation_port, if_pos rfl] at ends hports
  rw [hself, houtstanding] at withdrawn
  rw [hself, hawaited] at ends
  obtain ⟨p1, a1, w1, x1, y1, h1⟩ := withdrawPresentation_frame u c
  obtain ⟨p2, k2, l2, j2, h2⟩ := endWriteUnknown_frame (u.withdrawPresentation c) c
  refine ⟨?_, ?_, fun d hd => ?_, fun d => ?_, ?_, ?_⟩
  · rw [h2, h1, ← hu]
  · rw [hports, if_pos rfl, hself]
  · rw [hports, if_neg hd, withdrawPresentation_port, if_neg hd, hport, if_neg hd]
    exact .same _
  · rw [h2, h1, ← hu]
    exact hgate d
  · have claimsSame : u.EndsUnknown ((u.withdrawPresentation c).endWriteUnknown c) c (s.port c).awaited := by
      rw [h1] at ends ⊢
      exact ⟨ends.others, ends.live, ends.cancelled, ends.unclaimed⟩
    rw [← hu] at claimsSame ⊢
    exact ⟨claimsSame.others, claimsSame.live, claimsSame.cancelled, claimsSame.unclaimed⟩
  · rw [h2]
    rw [← hu] at withdrawn ⊢
    exact ⟨withdrawn.slots, withdrawn.work⟩

end Sys2Proof.Machine.State
end

section
/-! READY and the inactivity timer's run-out: an event's end leaves the port of a line that is not UP, and a SETUP
attaches the reader anew. -/

namespace Sys2Proof.Machine

/-- The records waiting on a line that has left UP: a SETUP is kept, VERDICT and MODE are discarded (R82). -/
theorem ReaderRecord.isSetup_eq : ReaderRecord.isSetup = fun r => match r with
    | .setup .. => true
    | _ => false := by
  funext r
  cases r <;> rfl

/-- A port on which a SETUP is sent, or waits behind the frame going out, and the attach timer starts (R79, R82). -/
def Port.setupSent (p : Port) (r : ReaderRecord) : Port :=
  if p.sending.isNone then { p with sending := some r, attach := some Config.attachMs }
  else { p with waiting := p.waiting ++ [r], attach := some Config.attachMs }

/-- A port whose presentation and awaited write have ended. -/
def Port.ended (p : Port) : Port := { p with outstanding := none, awaited := none }

/-- A port whose line has left UP (R72, R82). -/
def Port.leftUp (p : Port) (line : LineState) : Port :=
  { p with line := line, waiting := p.waiting.filter ReaderRecord.isSetup }

/-- A port whose line is lost (R81, R82). -/
def Port.lost (p : Port) : Port := { p with line := .down, inactivity := none, attach := none, waiting := [] }

/-- A line that is not UP, with no presentation outstanding and no write awaited. -/
structure Port.StandsAt (p : Port) (state : LineState) : Prop where
  line : p.line = state
  outstanding : p.outstanding = none
  awaited : p.awaited = none
  inactivity : p.inactivity = if state = .down then none else some 3000
  attach : p.attach = if state = .down then none else some 1000

namespace State

variable {s u v : State} {c d : Chan} {p : Port}

/-! ### An event's end on a line that is not UP -/

theorem deliver_of_not_outstanding (h : (s.port c).outstanding = none) (verdict : Verdict) :
    s.deliver c verdict = s := by
  unfold deliver
  rw [h]

theorem refusePending_port_of_not_outstanding (h : (s.port c).outstanding = none) (d : Chan) (code : VerdictCode) :
    (s.refusePending d code).port c = s.port c := by
  rcases eq_or_ne c d with rfl | hd
  · unfold refusePending
    split
    · rfl
    · rw [deliver_of_not_outstanding (by exact h)]
      rfl
  · exact refusePending_port_other hd code

theorem tellArbiter_port_of_not_outstanding (h : (s.port c).outstanding = none) (old : State) (d : Chan) :
    (tellArbiter old s d).port c = s.port c := by
  unfold tellArbiter
  split
  · rfl
  · split
    · rfl
    · exact refusePending_port_of_not_outstanding h d _

theorem showMode_port_of_not_up (h : (s.port c).line ≠ .up) (d : Chan) : (s.showMode d).port c = s.port c := by
  unfold showMode
  dsimp only
  split
  · next hup =>
    simp only [Bool.and_eq_true, decide_eq_true_eq] at hup
    refine (sendRecord_port_other ?_ _).trans rfl
    rintro rfl
    exact h hup.1
  · rfl

theorem settleChannel_port_of_not_up (hline : (s.port c).line ≠ .up) (hnone : (s.port c).outstanding = none)
    (d : Chan) : (s.settleChannel d).port c = s.port c := by
  have reported : (reportState s (s.takeState d) d).port c = s.port c := by
    obtain ⟨_, h⟩ := reportState_frame s (s.takeState d) d
    rw [h]
    rfl
  have told : (tellArbiter s (reportState s (s.takeState d) d) d).port c = s.port c := by
    rw [tellArbiter_port_of_not_outstanding (by rwa [reported]), reported]
  unfold settleChannel
  dsimp only
  rw [showMode_port_of_not_up (by rwa [told]), told]

/-- The end of an event sends nothing on a line that is not UP and on which no presentation is outstanding. -/
theorem settle_port_of_not_up (hline : (s.port c).line ≠ .up) (hnone : (s.port c).outstanding = none)
    (before : State) (after : List Notice) : (settle before s after).port c = s.port c := by
  rw [settle_eq]
  obtain ⟨q, hq⟩ := queueAll_frame s (crossing before s .b0 ++ crossing before s .b1 ++ after)
  have step : ∀ {t : State} (d : Chan), t.port c = s.port c → (t.settleChannel d).port c = s.port c := by
    intro t d ht
    rw [settleChannel_port_of_not_up (by rwa [ht]) (by rwa [ht]), ht]
  refine step .c3 (step .c2 (step .c1 (step .c0 ?_)))
  rw [hq]
  rfl

/-! ### A SETUP sent (R79) -/

theorem sendSetup_chan (s : State) (c : Chan) : ∃ t, (s.sendSetup c).chan c =
    { s.chan c with modeShown := some (s.displayMode c), tallies := t } := by
  obtain ⟨t, h⟩ := sendRecord_chan (s.setChan c { s.chan c with modeShown := some (s.displayMode c) }) c c
    (.setup c.num s.cfg.pierNumber (s.displayMode c))
  rw [chan_setChan, if_pos rfl] at h
  exact ⟨t, h⟩

theorem sendSetup_gates (s : State) (c : Chan) : s.GatesKept (s.sendSetup c) := by
  unfold sendSetup
  dsimp only
  refine GatesKept.trans ?_ (sendRecord_gates _ c _)
  refine ⟨fun d => ?_, fun _ => .same _⟩
  rw [chan_setChan]
  split
  · next hd =>
    rw [hd]
    exact ⟨rfl, rfl, rfl, rfl, rfl, rfl, rfl, rfl, rfl, rfl, rfl, rfl, rfl⟩
  · exact .same _

theorem attachAnew_frame (s : State) (c : Chan) :
    ∃ k p, s.attachAnew c = { s with channels := k, ports := p } := by
  obtain ⟨_, _, h⟩ := sendSetup_frame s c
  unfold attachAnew
  dsimp only
  rw [h]
  exact ⟨_, _, rfl⟩

theorem attachAnew_port (s : State) (c : Chan) : (s.attachAnew c).port c =
    (s.port c).setupSent (.setup c.num s.cfg.pierNumber (s.displayMode c)) := by
  unfold attachAnew Port.setupSent
  dsimp only
  rw [port_setPort, if_pos rfl]
  unfold sendSetup sendRecord
  dsimp only
  have kept : (s.setChan c { s.chan c with modeShown := some (s.displayMode c) }).port c = s.port c := rfl
  rw [kept]
  split
  · rw [startRecord_port, if_pos rfl, kept]
  · rw [port_setPort, if_pos rfl]

theorem attachAnew_line_other (hd : d ≠ c) : (s.port d).SameLine ((s.attachAnew c).port d) := by
  unfold attachAnew
  dsimp only
  rw [port_setPort, if_neg hd]
  exact (sendSetup_gates s c).line d

theorem attachAnew_same (s : State) (c : Chan) : SameInputs s (s.attachAnew c) c := by
  obtain ⟨_, _, h⟩ := attachAnew_frame s c
  have hgate : (s.chan c).SameGate ((s.attachAnew c).chan c) := (sendSetup_gates s c).gate c
  have hline : ((s.attachAnew c).port c).line = (s.port c).line := by
    rw [attachAnew_port]
    unfold Port.setupSent
    split <;> rfl
  exact ⟨by rw [h], by rw [h], by rw [h], by rw [h], hgate.rampSafe, hgate.service, hline⟩

/-- Attached anew, a reader shows the mode that its SETUP carries (R72). -/
theorem attachAnew_shown (s : State) (c : Chan) : (s.attachAnew c).displayMode c = s.displayMode c ∧
    ((s.attachAnew c).chan c).modeShown = some (s.displayMode c) := by
  obtain ⟨t, h⟩ := sendSetup_chan s c
  have hchan : (s.attachAnew c).chan c = _ := h
  refine ⟨(attachAnew_same s c).displayMode ?_, ?_⟩
  · rw [hchan]
  · rw [hchan]

/-! ### What a selection leaves -/

theorem select_shown (s : State) (c : Chan) : s.select.displayMode c = s.displayMode c ∧
    (s.select.chan c).modeShown = (s.chan c).modeShown := by
  obtain ⟨_, hchan⟩ := select_chan s c
  obtain ⟨_, _, _, h⟩ := select_frame s
  have same : SameInputs s s.select c := ⟨by rw [h], by rw [h], by rw [h], by rw [h], by rw [hchan], by rw [hchan],
    congrArg Port.line (select_port s c)⟩
  exact ⟨same.displayMode (by rw [hchan]), by rw [hchan]⟩

theorem select_of_work {w : Work} (h : s.engine.work = some w) : s.select = s := by
  unfold select
  rw [h]
  rfl

/-! ### The steps of the event -/

/-- What an event still does to notices, pending presentations, channels and ports leaves presentation and write
ended, where it keeps the gates and the other lines. -/
theorem Leaves.andThen {q : NoticeQueue} {a : Arbiter} {k : PerChan Channel} {ps : PerChan Port}
    (h : s.Leaves v c p) (ht : u = { v with notices := q, arbiter := a, channels := k, ports := ps }) {r : Port}
    (hport : u.port c = r) (hlines : ∀ d, d ≠ c → (v.port d).SameLine (u.port d))
    (hgates : ∀ d, (v.chan d).SameGate (u.chan d)) : s.Leaves u c r := by
  refine ⟨?_, hport, fun d hd => (h.lines d hd).trans (hlines d hd), fun d => (h.gate d).trans (hgates d), ?_, ?_⟩
  · rw [ht, h.frame]
  · rw [ht]
    exact ⟨h.ends.others, h.ends.live, h.ends.cancelled, h.ends.unclaimed⟩
  · rw [ht]
    exact ⟨h.withdraws.slots, h.withdraws.work⟩

theorem Leaves.settle (h : s.Leaves v c p) (hline : p.line ≠ .up) (hnone : p.outstanding = none) (before : State)
    (after : List Notice) : s.Leaves (settle before v after) c p := by
  have hport := settle_port_of_not_up (s := v) (c := c) (by rwa [h.port]) (by rwa [h.port]) before after
  have hgates := (settle_follow before v after).gates
  obtain ⟨_, _, _, _, hframe⟩ := settle_frame before v after
  exact h.andThen hframe (hport.trans h.port) (fun d _ => hgates.line d) hgates.gate

theorem Leaves.leaveUp (h : s.Leaves v c p) (line : LineState) : s.Leaves (v.leaveUp c line) c (p.leftUp line) := by
  have hframe : v.leaveUp c line = { v with
      channels := (v.leaveUp c line).channels, ports := (v.leaveUp c line).ports } := rfl
  refine h.andThen hframe ?_ (fun d hd => ?_) (fun d => ?_)
  · refine (port_setPort ..).trans ((if_pos rfl).trans ?_)
    rw [h.port]
    rfl
  · have kept : (v.leaveUp c line).port d = v.port d := (port_setPort ..).trans (if_neg hd)
    rw [kept]
    exact .same _
  · unfold State.leaveUp
    rw [chan_setChan]
    split
    · next hd =>
      rw [hd]
      exact ⟨rfl, rfl, rfl, rfl, rfl, rfl, rfl, rfl, rfl, rfl, rfl, rfl, rfl⟩
    · exact .same _

theorem Leaves.attachAnew (h : s.Leaves v c p) : s.Leaves (v.attachAnew c) c
    (p.setupSent (.setup c.num s.cfg.pierNumber (v.displayMode c))) := by
  obtain ⟨_, _, hframe⟩ := attachAnew_frame v c
  have hcfg : v.cfg = s.cfg := by rw [h.frame]; rfl
  refine h.andThen hframe ?_ (fun d hd => attachAnew_line_other hd) (sendSetup_gates v c).gate
  rw [attachAnew_port, h.port, hcfg]

theorem Leaves.select (h : s.Leaves v c p) : s.Leaves v.select c p := by
  obtain ⟨_, _, _, hframe⟩ := select_frame v
  have hgates := select_gates v
  refine ⟨?_, (select_port v c).trans h.port, fun d hd => (h.lines d hd).trans (hgates.line d),
    fun d => (h.gate d).trans (hgates.gate d), ?_, ?_, fun w hw => ?_⟩
  · rw [hframe, h.frame]
  · rw [hframe]
    exact ⟨h.ends.others, h.ends.live, h.ends.cancelled, h.ends.unclaimed⟩
  · rw [hframe]
    exact h.withdraws.slots
  · have working := h.withdraws.work w hw
    rw [select_of_work working]
    exact working

end State
end Sys2Proof.Machine
end

section
/-! READY and the inactivity timer's run-out, whole. -/

namespace Sys2Proof.Machine.State

variable {s t v : State} {c : Chan} {p : Port}

/-- READY on a line that is not DOWN restarts the inactivity timer and is taken (R76). -/
theorem exec_ready (hrun : s.power = .running) (hline : (s.port c).line ≠ .down) :
    exec (.ready c) s = .next ((s.setPort c (heard (s.port c))).takeReady c) := by
  refine congrArg Host.Outcome.next ((whenRunning_running hrun _).trans ?_)
  unfold hearReader
  split
  · next hdown => exact absurd hdown hline
  · rfl
  · rfl

theorem heard_port (s : State) (c : Chan) : (s.setPort c (heard (s.port c))).port c = heard (s.port c) :=
  (port_setPort ..).trans (if_pos rfl)

/-! ### READY in ATTACHING (R79) -/

theorem takeReady_attaching (hline : (s.port c).line = .attaching) :
    (s.setPort c (heard (s.port c))).takeReady c = settle (s.setPort c (heard (s.port c)))
      (s.setPort c { heard (s.port c) with line := .up, attach := none }) [] := by
  have hheard : ((s.setPort c (heard (s.port c))).port c).line = .attaching := by
    rw [heard_port]
    exact hline
  unfold takeReady
  rw [hheard]
  dsimp only
  unfold lineUp
  rw [setPort_setPort, heard_port]

/-- A line that an event has brought UP shows its mode at the event's end (R71). -/
theorem settle_shown (before : State) (after : List Notice) (hup : (s.port c).line = .up) :
    ((settle before s after).chan c).modeShown = some ((settle before s after).displayMode c) := by
  have hline := (settle_follow before s after).gates.line c
  exact (settle_settled before s after c).shown (hline.line.trans hup)

theorem exec_ready_attaching (hrun : s.power = .running) (hline : (s.port c).line = .attaching) :
    ∃ t, exec (.ready c) s = .next t ∧
      t = { s with notices := t.notices, arbiter := t.arbiter, channels := t.channels, ports := t.ports } ∧
      (s.setPort c { heard (s.port c) with line := .up, attach := none }).ChannelsFollow t ∧
      (t.chan c).modeShown = some (t.displayMode c) := by
  have hexec := exec_ready hrun (c := c) (by rw [hline]; exact nofun)
  rw [takeReady_attaching hline] at hexec
  refine ⟨_, hexec, ?_, settle_follow .., settle_shown _ _ ?_⟩
  · obtain ⟨_, _, _, _, h⟩ := settle_frame (s.setPort c (heard (s.port c)))
      (s.setPort c { heard (s.port c) with line := .up, attach := none }) []
    rw [h]
    rfl
  · rw [port_setPort, if_pos rfl]

/-! ### READY in UP (R80) -/

theorem takeReady_up (hup : (s.port c).line = .up) : (s.setPort c (heard (s.port c))).takeReady c =
    (s.setPort c (heard (s.port c))).reattach c := by
  have hheard : ((s.setPort c (heard (s.port c))).port c).line = .up := by
    rw [heard_port]
    exact hup
  unfold takeReady
  rw [hheard]

/-- The port of a line that READY has found UP, before its SETUP is sent. -/
def reattached (p : Port) : Port := (heard p).ended.leftUp .attaching

theorem reattach_leaves (s : State) (c : Chan) :
    s.Leaves ((s.setPort c (heard (s.port c))).reattach c) c ((reattached (s.port c)).setupSent
      (.setup c.num s.cfg.pierNumber (((s.setPort c (heard (s.port c))).reattach c).displayMode c))) ∧
    (((s.setPort c (heard (s.port c))).reattach c).chan c).modeShown =
      some (((s.setPort c (heard (s.port c))).reattach c).displayMode c) := by
  generalize hbefore : s.setPort c (heard (s.port c)) = before
  have ended : s.Leaves ((before.withdrawPresentation c).endWriteUnknown c) c (heard (s.port c)).ended := by
    rw [← hbefore]
    exact ended_leaves s s.notices s.channels (fun _ => .same _) rfl rfl
  have settled := (ended.leaveUp .attaching).settle nofun rfl before []
  unfold reattach
  dsimp only
  generalize hx : settle before _ [] = x at settled ⊢
  obtain ⟨hmode, hshown⟩ := attachAnew_shown x c
  obtain ⟨hmode', hshown'⟩ := select_shown (x.attachAnew c) c
  rw [hshown', hmode', hshown, hmode]
  exact ⟨settled.attachAnew.select, rfl⟩

/-! ### The inactivity timer's run-out (R81) -/

/-- The state that has the loss of a reader reported, before anything ends. -/
def readerLost (s : State) (c : Chan) : State :=
  s.queue (.readerLost c (s.port c).line (s.port c).outstanding.isSome ((s.port c).awaited.map AwaitedWrite.tag))

theorem exec_inactivity (hrun : s.power = .running) (hline : (s.port c).line ≠ .down)
    (htimer : (s.port c).inactivity = some 0) : exec (.readerInactivityExpiry c) s = .next (settle s
      ((((s.readerLost c).lineDown c).withdrawPresentation c).endWriteUnknown c) []).select := by
  refine congrArg Host.Outcome.next ((whenRunning_running hrun _).trans ?_)
  unfold inactivityRunsOut
  dsimp only
  rw [htimer, if_neg]
  · rfl
  · simpa [ranOut] using hline

/-- The line of a channel is lost: its port stands still and no gate is changed (R72, R81, R82). -/
theorem lineDown_eq (s : State) (c : Chan) : ∃ k, s.lineDown c =
    { s with channels := k, ports := s.ports.set c (s.port c).lost } ∧ ∀ d, (s.chan d).SameGate (k.get d) := by
  unfold lineDown
  dsimp only
  split
  · refine ⟨_, rfl, fun d => ?_⟩
    rw [setPort_channels, PerChan.get_set]
    split
    · next hd =>
      rw [hd]
      exact ⟨rfl, rfl, rfl, rfl, rfl, rfl, rfl, rfl, rfl, rfl, rfl, rfl, rfl⟩
    · exact .same _
  · exact ⟨_, rfl, fun _ => .same _⟩

theorem ended_notices (s : State) (c : Chan) : ((s.withdrawPresentation c).endWriteUnknown c).notices = s.notices := by
  obtain ⟨_, _, _, _, _, h1⟩ := withdrawPresentation_frame s c
  obtain ⟨_, _, _, _, h2⟩ := endWriteUnknown_frame (s.withdrawPresentation c) c
  rw [h2, h1]

/-- A lost reader is reported, and its line stands still with presentation and write ended. -/
theorem readerLost_leaves (s : State) (c : Chan) :
    s.Leaves ((((s.readerLost c).lineDown c).withdrawPresentation c).endWriteUnknown c) c (s.port c).lost.ended ∧
      ((((s.readerLost c).lineDown c).withdrawPresentation c).endWriteUnknown c).notices =
        (s.readerLost c).notices := by
  obtain ⟨k, hdown, hgates⟩ := lineDown_eq (s.readerLost c) c
  obtain ⟨q, htold⟩ := queue_frame s (.readerLost c (s.port c).line (s.port c).outstanding.isSome
    ((s.port c).awaited.map AwaitedWrite.tag))
  change s.readerLost c = _ at htold
  refine ⟨?_, ?_⟩
  · rw [htold] at hdown hgates ⊢
    rw [hdown]
    exact ended_leaves s q k hgates rfl rfl
  · rw [ended_notices, hdown]

theorem inactivity_leaves (s : State) (c : Chan) :
    s.Leaves (settle s ((((s.readerLost c).lineDown c).withdrawPresentation c).endWriteUnknown c) []).select c
        (s.port c).lost.ended ∧
      s.QueuesFirst (settle s ((((s.readerLost c).lineDown c).withdrawPresentation c).endWriteUnknown c) []).select
        (.readerLost c (s.port c).line (s.port c).outstanding.isSome ((s.port c).awaited.map AwaitedWrite.tag)) := by
  obtain ⟨ended, hnotices⟩ := readerLost_leaves s c
  refine ⟨(ended.settle nofun rfl s []).select, queuesFirst_after (hnotices.trans (queue_notices ..)) ?_⟩
  exact (settle_extends s _ []).trans (.of_eq (select_notices _))

/-! ### The port at the end -/

theorem setupSent_standsAt (p : Port) (r : ReaderRecord) : ((reattached p).setupSent r).StandsAt .attaching := by
  unfold Port.setupSent
  split
  · exact ⟨rfl, rfl, rfl, rfl, rfl⟩
  · exact ⟨rfl, rfl, rfl, rfl, rfl⟩

theorem lost_standsAt (p : Port) : p.lost.ended.StandsAt .down := ⟨rfl, rfl, rfl, rfl, rfl⟩

/-- A SETUP goes out where no frame does, and waits behind the SETUPs waiting where one does (R82). -/
theorem setupSent_sends (p : Port) (setup : ReaderRecord) (kept : List ReaderRecord)
    (hkept : kept = p.waiting.filter ReaderRecord.isSetup) :
    (p.sending = none → ((reattached p).setupSent setup).sending = some setup ∧
      ((reattached p).setupSent setup).waiting = kept) ∧
    (p.sending ≠ none → ((reattached p).setupSent setup).sending = p.sending ∧
      ((reattached p).setupSent setup).waiting = kept ++ [setup]) := by
  have hsending : (reattached p).sending = p.sending := rfl
  subst hkept
  refine ⟨fun hidle => ?_, fun hbusy => ?_⟩
  · rw [Port.setupSent, hsending, hidle]
    exact ⟨rfl, rfl⟩
  · rw [Port.setupSent, if_neg (by rwa [hsending, Option.isNone_iff_eq_none])]
    exact ⟨rfl, rfl⟩

/-- READY in UP and the inactivity run-out leave the line ATTACHING and DOWN (R80, R81): `p` is the port at the end. -/
theorem leavesUp_leaves {i : Instr} {line : LineState} (hrun : s.power = .running)
    (h : i = .ready c ∧ (s.port c).line = .up ∧ line = .attaching ∨
      i = .readerInactivityExpiry c ∧ (s.port c).line ≠ .down ∧ (s.port c).inactivity = some 0 ∧ line = .down) :
    ∃ t p, exec i s = .next t ∧ s.Leaves t c p ∧ p.StandsAt line ∧
      (line = .attaching → (t.chan c).modeShown = some (t.displayMode c) ∧
        p = (reattached (s.port c)).setupSent (.setup c.num s.cfg.pierNumber (t.displayMode c))) ∧
      (line = .down → p = (s.port c).lost.ended ∧ s.QueuesFirst t (.readerLost c (s.port c).line
        (s.port c).outstanding.isSome ((s.port c).awaited.map AwaitedWrite.tag))) := by
  rcases h with ⟨rfl, hup, rfl⟩ | ⟨rfl, hline, htimer, rfl⟩
  · have hexec := exec_ready hrun (c := c) (by rw [hup]; exact nofun)
    rw [takeReady_up hup] at hexec
    obtain ⟨leaves, hshown⟩ := reattach_leaves s c
    exact ⟨_, _, hexec, leaves, setupSent_standsAt .., fun _ => ⟨hshown, rfl⟩, nofun⟩
  · obtain ⟨leaves, hfirst⟩ := inactivity_leaves s c
    exact ⟨_, _, exec_inactivity hrun hline htimer, leaves, lost_standsAt _, nofun, fun _ => ⟨rfl, hfirst⟩⟩

end Sys2Proof.Machine.State

open Sys2Proof.Machine.State

/-- Settles O60: READY in UP and the inactivity run-out end the presentation and the write alike; what follows moves no
other line, and the SETUP sent carries the mode that the event leaves. -/
theorem readerLinesComeAndGo : Obligations.ReaderLinesComeAndGo := by
  unfold Obligations.ReaderLinesComeAndGo
  refine fun s c hrun => ⟨exec_ready_attaching hrun, fun i line h => ?_⟩
  obtain ⟨t, p, hexec, leaves, stands, attaching, down⟩ := leavesUp_leaves hrun h
  obtain rfl := leaves.port
  obtain ⟨hline, houtstanding, hawaited, hinactivity, hattach⟩ := stands
  obtain ⟨others, live, cancelled, unclaimed⟩ := leaves.ends
  refine ⟨t, hexec, leaves.frame, hline, houtstanding, hawaited, hinactivity, hattach,
    fun d hd => ⟨others d hd, leaves.lines d hd⟩, leaves.gate, live, cancelled, unclaimed,
    fun hheld => leaves.withdraws.slots (Option.isSome_iff_ne_none.mpr hheld), leaves.withdraws.work,
    fun hattaching => ?_, fun hdown => ?_, fun hdown => ?_⟩
  · obtain ⟨hshown, hport⟩ := attaching hattaching
    refine ⟨hshown, fun setup kept hsetup hkept => ?_⟩
    rw [hport, ← hsetup]
    exact setupSent_sends (s.port c) setup kept (Sys2Proof.Machine.ReaderRecord.isSetup_eq ▸ hkept)
  · rw [(down hdown).1]
    rfl
  · obtain ⟨hport, hfirst⟩ := down hdown
    rw [hport]
    exact ⟨rfl, hfirst⟩

end

section
/-! Channels kept in their derived states. What the derivation, the lines and the mode of the channels rest on is one
value, which most operations leave as it is; the end of an event derives every channel anew. -/

namespace Sys2Proof.Machine

open Safety

/-- What a channel itself gives to its derivation, with the state and lines it has and the mode its reader shows while
UP (R54, R56, R70, R71). -/
structure Standing where
  state : ChannelState
  unlockIn : Bool
  unlockOut : Bool
  rampSafe : Bool
  service : ServiceFlag
  hasLive : Bool
  shown : Option (Option Mode)

/-- What the derivation of every channel rests on, with what the channels show for it (R54, R56, R70, R71). -/
structure Basis where
  active : Bool
  posture : PerChan (Option Posture)
  latch : PerChan (Option Latch)
  working : Settings
  calls : PerBerth Call
  held : Berth → Nat
  standing : Chan → Standing

namespace State

/-- What a channel gives to its derivation and shows for it. -/
def standing (s : State) (c : Chan) : Standing where
  state := (s.chan c).state
  unlockIn := (s.chan c).unlockIn
  unlockOut := (s.chan c).unlockOut
  rampSafe := (s.chan c).rampSafe
  service := (s.chan c).service
  hasLive := (s.claimsOf c).live.isEmpty
  shown := if (s.port c).line = .up then some (s.chan c).modeShown else none

/-- What the derivation of the channels rests on. -/
def basis (s : State) : Basis where
  active := s.egress.active
  posture := s.egress.posture
  latch := s.egress.latch
  working := s.cfg
  calls := s.calls
  held := s.held
  standing := s.standing

variable {s t u : State} {c : Chan}

/-- A channel derives the same state, lines and mode from the same basis (R54, R56, R70). -/
theorem basis_derives (h : t.basis = s.basis) (c : Chan) :
    t.deriveState c = s.deriveState c ∧ t.lines c = s.lines c ∧ t.displayMode c = s.displayMode c := by
  have hactive : t.egress.active = s.egress.active := congrArg Basis.active h
  have hposture : t.egress.posture = s.egress.posture := congrArg Basis.posture h
  have hlatch : t.egress.latch = s.egress.latch := congrArg Basis.latch h
  have hcfg : t.cfg = s.cfg := congrArg Basis.working h
  have hcalls : t.calls = s.calls := congrArg Basis.calls h
  have hheld : t.held = s.held := congrArg Basis.held h
  have hstanding : t.standing c = s.standing c := congrFun (congrArg Basis.standing h) c
  have hstate : (t.chan c).state = (s.chan c).state := congrArg Standing.state hstanding
  have hramp : (t.chan c).rampSafe = (s.chan c).rampSafe := congrArg Standing.rampSafe hstanding
  have hservice : (t.chan c).service = (s.chan c).service := congrArg Standing.service hstanding
  have hlive : (t.claimsOf c).live.isEmpty = (s.claimsOf c).live.isEmpty := congrArg Standing.hasLive hstanding
  have hup : (t.port c).line = .up ↔ (s.port c).line = .up := by
    have hshown := congrArg (fun k => k.shown.isSome) hstanding
    simpa [standing, apply_ite] using hshown
  have hberth : t.berthOf c = s.berthOf c := congrArg (fun k => k.berthOf.get c) hcfg
  have hcall : t.call = s.call := funext (call_congr hcalls)
  have hcallState : t.callStateOf c = s.callStateOf c := by rw [callStateOf, callStateOf, hberth, hcall]
  have hheadroom : t.headroom = s.headroom := by
    funext b
    rw [headroom, headroom, aboard, aboard, hcall, hheld]
  have hordinary : t.ordinaryState c = s.ordinaryState c := by
    simp only [ordinaryState, hcallState, hlive, hramp, hservice, ne_eq, hup] <;> rfl
  have hlines : t.ordinaryLines c = s.ordinaryLines c := by
    funext st
    simp only [ordinaryLines, hcallState]
  refine ⟨?_, ?_, ?_⟩
  · rw [deriveState, deriveState, hactive, hlatch, hordinary]
  · funext st
    simp only [lines, hposture, hlatch, hlines, hordinary]
  · simp only [displayMode, belowLastCall, noRoomAt, hcallState, hberth, hheadroom, hcfg, hstate, hservice] <;> rfl

/-- A settled channel stays settled where the basis stays. -/
theorem SettledAt.of_basis (hs : s.SettledAt c) (h : t.basis = s.basis) : t.SettledAt c := by
  obtain ⟨hderive, hlines, hmode⟩ := basis_derives h c
  have hstanding : t.standing c = s.standing c := congrFun (congrArg Basis.standing h) c
  have hstate : (t.chan c).state = (s.chan c).state := congrArg Standing.state hstanding
  have hin : (t.chan c).unlockIn = (s.chan c).unlockIn := congrArg Standing.unlockIn hstanding
  have hout : (t.chan c).unlockOut = (s.chan c).unlockOut := congrArg Standing.unlockOut hstanding
  have hshown : (if (t.port c).line = .up then some (t.chan c).modeShown else none) =
      if (s.port c).line = .up then some (s.chan c).modeShown else none := congrArg Standing.shown hstanding
  refine ⟨by rw [hstate, hderive, hs.state], by rw [hin, hout, hstate, hlines, hs.lines], fun hup => ?_⟩
  rw [if_pos hup] at hshown
  have hup' : (s.port c).line = .up := by
    by_contra hdown
    rw [if_neg hdown] at hshown
    cases hshown
  rw [if_pos hup'] at hshown
  rw [hmode, Option.some.inj hshown, hs.shown hup']

/-- What a part of an event does to channels that are settled: they stay so. -/
def KeepsSettled (s t : State) : Prop := (∀ c, s.SettledAt c) → ∀ c, t.SettledAt c

theorem KeepsSettled.of_basis (h : t.basis = s.basis) : s.KeepsSettled t := fun hs c => (hs c).of_basis h

theorem KeepsSettled.same (s : State) : s.KeepsSettled s := id

theorem KeepsSettled.trans (h : s.KeepsSettled t) (g : t.KeepsSettled u) : s.KeepsSettled u := g ∘ h

theorem KeepsSettled.of_settled (h : ∀ c, t.SettledAt c) : s.KeepsSettled t := fun _ => h

/-- The end of an event settles every channel, whatever came before (R55). -/
theorem settle_keepsSettled (before : State) (after : List Notice) : s.KeepsSettled (settle before u after) :=
  .of_settled (settle_settled before u after)

/-- An event that ends with a selection settles every channel: a selection moves the tally of presentations taken
alone. -/
theorem select_basis (s : State) : s.select.basis = s.basis := by
  have hchan : s.select.standing = s.standing := by
    funext c
    obtain ⟨n, hn⟩ := select_chan s c
    have hclaims : s.select.claimsOf c = s.claimsOf c := by
      obtain ⟨a, k, w, h⟩ := select_frame s
      rw [h]
      rfl
    rw [standing, standing, hn, select_port, hclaims]
  obtain ⟨a, k, w, h⟩ := select_frame s
  rw [h] at hchan ⊢
  exact congrArg (fun x => { s.basis with standing := x }) hchan

theorem settleSelect_keepsSettled (before : State) (after : List Notice) :
    s.KeepsSettled (settle before u after).select :=
  (settle_keepsSettled before after).trans (.of_basis (select_basis _))

end State

end Sys2Proof.Machine
end

section
/-! The operations that leave the basis of every channel's derivation as it is: notices, records on a reader line, a
reader heard or attached anew, and the passing of time. The first derivation of a start-up. -/

namespace Sys2Proof.Machine.State

variable {s t u : State} {c : Chan}

/-! ### Notices, ports and channels -/

theorem queue_basis (s : State) (n : Notice) : (s.queue n).basis = s.basis := by
  rw [queue_eq]
  rfl

/-- Where each channel stands as it did and the rest of the basis is kept, the basis is. -/
theorem basis_of_standing (rest : { t.basis with standing := s.standing } = s.basis)
    (h : ∀ c, t.standing c = s.standing c) : t.basis = s.basis :=
  (congrArg (fun x => { t.basis with standing := x }) (funext h)).trans rest

/-- A channel whose tallies alone moved, on a line as it was, stands as it did. -/
theorem standing_of_tallies {x : Tallies} (hchan : t.chan c = { s.chan c with tallies := x })
    (hline : (t.port c).line = (s.port c).line) (hclaims : t.claims = s.claims) : t.standing c = s.standing c := by
  rw [standing, standing, hchan, hline, claimsOf, claimsOf, hclaims]

theorem startRecord_basis (s : State) (c : Chan) (r : ReaderRecord) : (s.startRecord c r).basis = s.basis := by
  obtain ⟨k, p, h⟩ := startRecord_frame s c r
  refine basis_of_standing (by rw [h]; rfl) fun d => ?_
  obtain ⟨x, hx⟩ := startRecord_chan s c d r
  refine standing_of_tallies hx ?_ (by rw [h])
  rw [startRecord_port]
  split
  · next hd => rw [hd]
  · rfl

theorem sendRecord_basis (s : State) (c : Chan) (r : ReaderRecord) : (s.sendRecord c r).basis = s.basis := by
  obtain ⟨k, p, h⟩ := sendRecord_frame s c r
  refine basis_of_standing (by rw [h]; rfl) fun d => ?_
  obtain ⟨x, hx⟩ := sendRecord_chan s c d r
  exact standing_of_tallies hx (sendRecord_line s c d r) (by rw [h])

/-- A port that is UP exactly where it was leaves the basis. -/
theorem setPort_basis (s : State) (c : Chan) {p : Port} (hup : p.line = .up ↔ (s.port c).line = .up) :
    (s.setPort c p).basis = s.basis := by
  refine basis_of_standing rfl fun d => ?_
  have hline : ((s.setPort c p).port d).line = .up ↔ (s.port d).line = .up := by
    rw [port_setPort]
    split
    · next hd => rw [hd, hup]
    · rfl
  exact congrArg (fun x => { s.standing d with shown := x }) (if_congr hline rfl rfl)

/-- A channel that stands as it did leaves the basis. -/
theorem setChan_basis (s : State) (c : Chan) {k : Channel} (h : (s.setChan c k).standing c = s.standing c) :
    (s.setChan c k).basis = s.basis := by
  refine basis_of_standing rfl fun d => ?_
  by_cases hd : d = c
  · rw [hd, h]
  · rw [standing, standing, chan_setChan, if_neg hd]
    rfl

theorem standing_setChan (s : State) (c : Chan) (k : Channel) : (s.setChan c k).standing c =
    { s.standing c with
      state := k.state
      unlockIn := k.unlockIn
      unlockOut := k.unlockOut
      rampSafe := k.rampSafe
      service := k.service
      shown := if (s.port c).line = .up then some k.modeShown else none } := by
  rw [standing, chan_setChan, if_pos rfl]
  rfl

/-! ### Readers -/

/-- A SETUP changes the mode shown of a reader that is not UP (R72, R79). -/
theorem attachAnew_basis (hline : (s.port c).line ≠ .up) : (s.attachAnew c).basis = s.basis := by
  have hsent : (s.sendSetup c).basis = s.basis := by
    refine (sendRecord_basis _ c _).trans (setChan_basis s c ?_)
    rw [standing_setChan, if_neg hline, standing, if_neg hline]
  refine Eq.trans ?_ hsent
  exact setPort_basis _ c Iff.rfl

theorem startAttach_basis (hline : (s.port c).line = .down) : (s.startAttach c).basis = s.basis := by
  refine (attachAnew_basis ?_).trans (setPort_basis s c (by simp [hline]))
  rw [port_setPort, if_pos rfl]
  exact nofun

theorem withdrawPresentation_basis (s : State) (c : Chan) : (s.withdrawPresentation c).basis = s.basis := by
  obtain ⟨p, a, w, x, y, h⟩ := withdrawPresentation_frame s c
  refine basis_of_standing (by rw [h]; rfl) fun d => ?_
  refine standing_of_tallies (x := (s.chan d).tallies) (by rw [h]; rfl) ?_ (by rw [h])
  rw [withdrawPresentation_port]
  split
  · next hd => rw [hd]
  · rfl

theorem takeWithdraw_basis (s : State) (c : Chan) (id : CardId) : (s.takeWithdraw c id).basis = s.basis := by
  unfold takeWithdraw
  split
  · rfl
  · split
    · exact withdrawPresentation_basis s c
    · rfl

theorem frameSent_basis (s : State) (c : Chan) : (s.frameSent c).basis = s.basis := by
  unfold frameSent
  split
  · rfl
  · split
    · exact setPort_basis s c Iff.rfl
    · exact (startRecord_basis _ c _).trans (setPort_basis s c Iff.rfl)

theorem attachRunsOut_basis (s : State) (c : Chan) : (s.attachRunsOut c).basis = s.basis := by
  unfold attachRunsOut
  split
  · next h =>
    have hline : (s.port c).line = .attaching := of_decide_eq_true (Bool.and_eq_true_iff.mp h).2
    exact attachAnew_basis (by rw [hline]; exact nofun)
  · rfl

theorem obstructionRunsOut_basis (s : State) (c : Chan) : (s.obstructionRunsOut c).basis = s.basis := by
  unfold obstructionRunsOut
  split
  · rfl
  · exact (queue_basis _ _).trans (setChan_basis s c (standing_setChan ..))

/-! ### The passing of time (R149) -/

theorem heldIn_windowLater (b : Berth) (ks : List Claim) : heldIn b (windowLater ks) = heldIn b ks := by
  cases ks <;> rfl

theorem windowLater_isEmpty (ks : List Claim) : (windowLater ks).isEmpty = ks.isEmpty := by cases ks <;> rfl

theorem claimsLater_heldOn (s : State) (c : Chan) (b : Berth) :
    (s.claimsLater c).heldOn b = (s.claimsOf c).heldOn b := by
  unfold claimsLater
  split
  · rfl
  · exact congrArg (· + heldIn b (s.claimsOf c).provisional) (heldIn_windowLater b _)

theorem tick_basis (s : State) : s.tick.basis = s.basis := by
  have hheld : s.tick.held = s.held := by
    funext b
    simp only [held, tick_claimsOf, claimsLater_heldOn]
  refine basis_of_standing ?_ fun c => ?_
  · exact congrArg (fun x => { s.basis with held := x }) hheld
  · have hchan : s.tick.chan c = (s.chan c).later := PerChan.get_of ..
    have hport : s.tick.port c = (s.port c).later := PerChan.get_of ..
    have hlive : (s.claimsLater c).live.isEmpty = (s.claimsOf c).live.isEmpty := by
      unfold claimsLater
      split
      · rfl
      · exact windowLater_isEmpty _
    rw [standing, hchan, hport, tick_claimsOf, hlive]
    rfl

/-! ### The clock, reports, settings stored and tables -/

theorem activatePending_basis (s : State) (cause : TariffCause) : (s.activatePending cause).basis = s.basis := by
  unfold activatePending
  split
  · split
    · exact queue_basis _ _
    · rfl
  · rfl

theorem queueReport_basis (s : State) (b : Berth) : (s.queueReport b).basis = s.basis := by
  unfold queueReport queueIf
  split
  · exact queue_basis s _
  · rfl

theorem endStore_basis (s : State) (readBack : StoredImage) : (s.endStore readBack).basis = s.basis := by
  unfold endStore
  split
  · rfl
  · exact queue_basis _ _

theorem loadRunsOut_basis (s : State) : s.loadRunsOut.basis = s.basis := by
  unfold loadRunsOut
  split
  · rfl
  · split
    · exact queue_basis _ _
    · rfl

end Sys2Proof.Machine.State
end

section
/-! Every command, and every step, keeps the channels in their derived states: it leaves the basis of the derivation,
or it ends with every channel derived anew. -/

namespace Sys2Proof.Machine

open Safety

namespace State

variable {s t u : State} {c : Chan}

/-! ### Start-up (R75, R185) -/

/-- Entry to egress at a start-up ends no call and empties nothing: there is none and nothing (R171, R185). -/
theorem cleared_enterEgress (s : State) (cause : StartCause) (found : Found) (entry : EgressCause) :
    (s.cleared cause found).enterEgress entry = (s.cleared cause found).startEgress entry := by
  obtain ⟨e, q, h⟩ := startEgress_frame (s.cleared cause found) entry
  unfold enterEgress
  rw [h]
  rfl

/-- A start-up but for the first derivation of the channels (R185). -/
def started (s : State) (cause : StartCause) (found : Found) : State :=
  if found.evacuate then (s.cleared cause found).startEgress .line else s.cleared cause found

theorem startUp_eq (s : State) (cause : StartCause) (found : Found) : s.startUp cause found =
    ((((s.started cause found).firstDerivation .c0).firstDerivation .c1).firstDerivation .c2).firstDerivation .c3 := by
  unfold startUp started
  dsimp only
  rw [cleared_enterEgress]

theorem started_frame (s : State) (cause : StartCause) (found : Found) :
    ∃ e q, s.started cause found = { s.cleared cause found with egress := e, notices := q } := by
  unfold started
  split
  · exact startEgress_frame _ _
  · exact ⟨_, _, rfl⟩

theorem started_down (s : State) (cause : StartCause) (found : Found) (c : Chan) :
    ((s.started cause found).port c).line = .down := by
  obtain ⟨e, q, h⟩ := started_frame s cause found
  rw [h]
  cases c <;> rfl

theorem firstDerivation_same (s : State) (c d : Chan) : SameInputs s (s.firstDerivation c) d where
  egress := rfl
  settings := rfl
  calls := rfl
  claims := rfl
  rampSafe := by
    simp only [firstDerivation, chan_setChan]
    split
    · next h => rw [h]
    · rfl
  service := by
    simp only [firstDerivation, chan_setChan]
    split
    · next h => rw [h]
    · rfl
  line := rfl

/-- The first derivation settles a channel whose reader is not UP (R75). -/
theorem firstDerivation_settled (hline : (s.port c).line ≠ .up) : (s.firstDerivation c).SettledAt c where
  state := by
    rw [(firstDerivation_same s c c).deriveState, firstDerivation, chan_setChan, if_pos rfl]
  lines := by
    rw [(firstDerivation_same s c c).lines, firstDerivation, chan_setChan, if_pos rfl]
  shown := fun hup => absurd hup hline

theorem firstDerivation_keeps {d : Chan} (hd : d ≠ c) (h : s.SettledAt d) : (s.firstDerivation c).SettledAt d := by
  have hchan : (s.firstDerivation c).chan d = s.chan d := by rw [firstDerivation, chan_setChan, if_neg hd]
  exact h.of_same (firstDerivation_same s c d) (by rw [hchan]) (by rw [hchan]) (by rw [hchan]) (by rw [hchan])

theorem startUp_settled (s : State) (cause : StartCause) (found : Found) (c : Chan) :
    (s.startUp cause found).SettledAt c := by
  have hdown : ((s.started cause found).port c).line ≠ .up := by rw [started_down]; exact nofun
  rw [startUp_eq]
  cases c with
  | c0 =>
    exact firstDerivation_keeps (by decide) (firstDerivation_keeps (by decide) (firstDerivation_keeps (by decide)
      (firstDerivation_settled hdown)))
  | c1 => exact firstDerivation_keeps (by decide) (firstDerivation_keeps (by decide) (firstDerivation_settled hdown))
  | c2 => exact firstDerivation_keeps (by decide) (firstDerivation_settled hdown)
  | c3 => exact firstDerivation_settled hdown

/-! ### Requests and events -/

theorem channelsDerived_iff (s : State) : ChannelsDerived s ↔ (s.power = .running → ∀ c, s.SettledAt c) :=
  forall_congr' fun _ => forall_congr' fun _ =>
    ⟨fun ⟨state, lines, shown⟩ => ⟨state, lines, shown⟩, fun h => ⟨h.state, h.lines, h.shown⟩⟩

/-- An event that a running part takes keeps the derived states where its effect keeps settled channels so. -/
theorem whenRunning_derived {f : State → State} (h : s.KeepsSettled (f s)) (hs : ChannelsDerived s) :
    ChannelsDerived (s.whenRunning f) := by
  unfold whenRunning
  split
  · next hrun =>
    exact (channelsDerived_iff _).mpr fun _ => h ((channelsDerived_iff s).mp hs hrun)
  · exact hs

theorem answer_basis (kind : Nat) (dest : Dest) (a : Act) : (answer kind dest a).basis = a.state.basis := by
  cases dest <;> rfl

theorem request_derived {kind : MsgKind} {dest : Dest} {len : BodyLen} {act : State → Act}
    (h : ∀ s : State, s.KeepsSettled (act s).state) (hs : ChannelsDerived s) :
    ChannelsDerived (s.request kind dest len act) := by
  have begun : s.KeepsSettled s.beginRequest := .of_basis rfl
  refine whenRunning_derived (KeepsSettled.trans ?_ (.of_basis (answer_basis ..))) hs
  cases len with
  | wrong => exact begun
  | fits => exact begun.trans (h _)

/-- A request that leaves the basis of the derivation keeps the derived states. -/
theorem request_basis {kind : MsgKind} {dest : Dest} {len : BodyLen} {act : State → Act}
    (h : ∀ s : State, (act s).state.basis = s.basis) (hs : ChannelsDerived s) :
    ChannelsDerived (s.request kind dest len act) :=
  request_derived (fun s => .of_basis (h s)) hs

theorem stateMessage_keepsSettled {berth vessel : Nat} {accepts : CallState → Bool} {act : Berth → Act}
    (h : ∀ b, s.KeepsSettled (act b).state) : s.KeepsSettled (s.stateMessage berth vessel accepts act).state := by
  unfold stateMessage
  split
  · exact .same s
  · split
    · exact .same s
    · split
      · exact .same s
      · split
        · exact .same s
        · exact h _

/-- A frame of a reader that is heard keeps settled channels so, where what it carries does. -/
theorem hearReader_keepsSettled {take : State → State} (h : ∀ s : State, s.KeepsSettled (take s)) :
    s.KeepsSettled (s.hearReader c take) := by
  have heard : s.KeepsSettled (s.setPort c (heard (s.port c))) := .of_basis (setPort_basis s c Iff.rfl)
  unfold hearReader
  split
  · next hline => exact .of_basis (startAttach_basis hline)
  · exact heard.trans (h _)
  · exact heard.trans (h _)

theorem whenUp_keepsSettled {take : State → State} (h : s.KeepsSettled (take s)) :
    s.KeepsSettled (s.whenUp c take) := by
  unfold whenUp
  split
  · exact h
  · exact .same s
  · exact .same s

end State

end Sys2Proof.Machine
end

section
/-! The requests and events that end with the channels derived anew, and the derived states kept by every command and
every step. -/

namespace Sys2Proof.Machine

open Safety

namespace State

variable {s : State} {c : Chan}

/-! ### Requests -/

theorem ok_keepsSettled {t : State} {body : ReplyBody} (h : s.KeepsSettled t) :
    s.KeepsSettled (Act.ok t body).state := h

theorem enteredReply_keepsSettled {t : State} {b : Berth} (h : s.KeepsSettled t) :
    s.KeepsSettled (t.enteredReply b).state := h

theorem actCallOpen_keepsSettled (s : State) (berth vessel line capacity declared dwell : Nat) :
    s.KeepsSettled (s.actCallOpen berth vessel line capacity declared dwell).state := by
  unfold actCallOpen
  split
  · exact .same s
  · split
    · exact .same s
    · split
      · exact .same s
      · split
        · exact .same s
        · exact enteredReply_keepsSettled (settle_keepsSettled s [])

theorem actAboardAdjust_keepsSettled (s : State) (berth vessel : Nat) (delta : Int) :
    s.KeepsSettled (s.actAboardAdjust berth vessel delta).state := by
  unfold actAboardAdjust
  split
  · exact .same s
  · exact stateMessage_keepsSettled fun b => ok_keepsSettled (settle_keepsSettled s [])

theorem actChannelService_keepsSettled (s : State) (channel : Nat) (value : Option ServiceFlag) :
    s.KeepsSettled (s.actChannelService channel value).state := by
  unfold actChannelService
  split
  · refine ok_keepsSettled ?_
    unfold setService
    split
    · exact .same s
    · exact settle_keepsSettled s []
  · exact .same s

theorem actChannelRelease_keepsSettled (s : State) (channel : Nat) (force : Option Bool) :
    s.KeepsSettled (s.actChannelRelease channel force).state := by
  unfold actChannelRelease
  split
  · split
    · exact .same s
    · split
      · exact .same s
      · exact ok_keepsSettled (settle_keepsSettled s [])
  · exact .same s

theorem actChannelRestore_keepsSettled (s : State) (target : RestoreTarget) :
    s.KeepsSettled (s.actChannelRestore target).state := by
  unfold actChannelRestore
  split
  · split
    · exact .same s
    · split
      · exact .same s
      · refine ok_keepsSettled ?_
        split
        · exact settle_keepsSettled s []
        · exact .same s
  · split
    · exact .same s
    · exact ok_keepsSettled (settle_keepsSettled s [])

theorem actEgressEnter_keepsSettled (s : State) : s.KeepsSettled s.actEgressEnter.state := by
  unfold actEgressEnter
  split
  · exact .of_basis rfl
  · exact ok_keepsSettled (settle_keepsSettled s [])

theorem actEgressClear_keepsSettled (s : State) : s.KeepsSettled s.actEgressClear.state := by
  unfold actEgressClear
  split
  · exact .same s
  · split
    · exact .same s
    · split
      · exact .of_basis rfl
      · exact ok_keepsSettled (settle_keepsSettled s [])

theorem actReferAnswer_keepsSettled (s : State) (id : Nat) (verdict : Option AnswerVerdict) (fare extra : Nat) :
    s.KeepsSettled (s.actReferAnswer id verdict fare extra).state := by
  unfold actReferAnswer
  split
  · exact .same s
  · split
    · exact .same s
    · split
      · exact .same s
      · split
        · exact .same s
        · exact ok_keepsSettled (settle_keepsSettled s _)

theorem actDeskCheck_keepsSettled (s : State) (line : Nat) (card : List Octet) :
    s.KeepsSettled (s.actDeskCheck line card).state := by
  unfold actDeskCheck
  split
  · exact .same s
  · split
    · exact .same s
    · split
      · exact .same s
      · exact ok_keepsSettled (settleSelect_keepsSettled s [])

theorem applySettings_keepsSettled (s : State) (new : Settings) : s.KeepsSettled (s.applySettings new) := by
  unfold applySettings
  split
  · exact .same s
  · exact settle_keepsSettled s []

theorem actSettingsSet_keepsSettled (s : State) (number : Nat) (value : SettingValue) :
    s.KeepsSettled (s.actSettingsSet number value).state := by
  unfold actSettingsSet
  split
  · exact .same s
  · split
    · split
      · exact .same s
      · exact ok_keepsSettled (applySettings_keepsSettled s _)
    · exact .same s

theorem actSettingsReload_keepsSettled (s : State) : s.KeepsSettled s.actSettingsReload.state := by
  have marked (fault : Bool) : s.KeepsSettled (s.setFault fault) := .of_basis rfl
  unfold actSettingsReload
  split
  · exact .same s
  · split
    · exact ok_keepsSettled ((marked false).trans (applySettings_keepsSettled _ _))
    · exact ok_keepsSettled ((marked true).trans (applySettings_keepsSettled _ _))

theorem actSettingsDefault_keepsSettled (s : State) : s.KeepsSettled s.actSettingsDefault.state := by
  unfold actSettingsDefault
  split
  · exact .same s
  · exact ok_keepsSettled (applySettings_keepsSettled s _)

/-! ### Requests that leave the basis -/

theorem actClockSet_basis (s : State) (day secs : Nat) : (s.actClockSet day secs).state.basis = s.basis := by
  unfold actClockSet
  split
  · rfl
  · exact activatePending_basis _ _

theorem actLoadBegin_basis (s : State) (kind : Option LoadKind) (version count : Nat) (crc : BitVec 16) :
    (s.actLoadBegin kind version count crc).state.basis = s.basis := by
  unfold actLoadBegin
  split
  · rfl
  · split
    · rfl
    · dsimp only
      split
      · rfl
      · split <;> rfl

theorem actLoadSegment_basis (s : State) (len : BodyLen) (index : Nat) (entries : List LoadEntry) :
    (s.actLoadSegment len index entries).state.basis = s.basis := by
  unfold actLoadSegment
  split
  · rfl
  · split
    · rfl
    · split
      · rfl
      · split
        · rfl
        · dsimp only
          split <;> rfl

theorem putTable_basis (s : State) (l : Load) : (s.putTable l).1.basis = s.basis := by
  unfold putTable
  dsimp only
  split
  · rfl
  · rfl
  · split
    · exact queue_basis _ _
    · rfl

theorem actLoadCommit_basis (s : State) : s.actLoadCommit.state.basis = s.basis := by
  unfold actLoadCommit
  split
  · rfl
  · split
    · rfl
    · exact putTable_basis s _

theorem actLoadAbort_basis (s : State) : s.actLoadAbort.state.basis = s.basis := by
  unfold actLoadAbort
  split <;> rfl

theorem actDenyEdit_basis (s : State) (len : BodyLen) (op : Option DenyOp) (items : List DenyItem) :
    (s.actDenyEdit len op items).state.basis = s.basis := by
  unfold actDenyEdit
  split
  · rfl
  · split
    · rfl
    · split
      · rfl
      · split
        · dsimp only
          split <;> rfl
        · rfl

theorem actTableQuery_basis (s : State) (subject : Subject) : (s.actTableQuery subject).state.basis = s.basis := by
  unfold actTableQuery
  split
  · rfl
  · rfl
  · split <;> rfl
  · split <;> rfl
  · rfl
  · rfl

theorem actAllotSet_basis (s : State) (token : CardId) (line total block : Nat) (expiry : Option ClockTime) :
    (s.actAllotSet token line total block expiry).state.basis = s.basis := by
  unfold actAllotSet
  split
  · rfl
  · split
    · split <;> rfl
    · split <;> rfl

theorem actAllotRemove_basis (s : State) (token : CardId) : (s.actAllotRemove token).state.basis = s.basis := by
  unfold actAllotRemove
  split
  · rfl
  · split
    · rfl
    · split <;> rfl

theorem actAllotQuery_basis (s : State) (key : AllotKey) : (s.actAllotQuery key).state.basis = s.basis := by
  unfold actAllotQuery
  split <;> split <;> rfl

theorem actSettingsGet_basis (s : State) (number : Nat) : (s.actSettingsGet number).state.basis = s.basis := by
  unfold actSettingsGet
  split
  · rfl
  · split <;> rfl

theorem actSettingsStore_basis (s : State) : s.actSettingsStore.state.basis = s.basis := by
  unfold actSettingsStore
  split
  · rfl
  · split <;> rfl

theorem actRestart_basis (s : State) : s.actRestart.state.basis = s.basis := by
  unfold actRestart
  split <;> rfl

/-! ### Readers -/

theorem takeReady_keepsSettled (s : State) (c : Chan) : s.KeepsSettled (s.takeReady c) := by
  unfold takeReady
  split
  · exact settle_keepsSettled s []
  · have ended := settle_keepsSettled (s := s) s []
      (u := ((s.withdrawPresentation c).endWriteUnknown c).leaveUp c .attaching)
    have hline : ((settle s (((s.withdrawPresentation c).endWriteUnknown c).leaveUp c .attaching) []).port c).line ≠
        .up := by
      have hleft :
          ((((s.withdrawPresentation c).endWriteUnknown c).leaveUp c .attaching).port c).line = .attaching := by
        exact congrArg Port.line ((port_setPort ..).trans (if_pos rfl))
      rw [((settle_follow s _ []).gates.line c).line, hleft]
      exact nofun
    exact ended.trans (.of_basis ((select_basis _).trans (attachAnew_basis hline)))
  · exact .same s

theorem takePresent_keepsSettled (s : State) (c : Chan) (card : Card) : s.KeepsSettled (s.takePresent c card) := by
  unfold takePresent
  exact settleSelect_keepsSettled s []

theorem takeWriteResult_keepsSettled (s : State) (c : Chan) (tag : Nat) (ok : Bool) :
    s.KeepsSettled (s.takeWriteResult c tag ok) := by
  unfold takeWriteResult
  split
  · exact .same s
  · split
    · exact .same s
    · exact settleSelect_keepsSettled s []

theorem inactivityRunsOut_keepsSettled (s : State) (c : Chan) : s.KeepsSettled (s.inactivityRunsOut c) := by
  unfold inactivityRunsOut
  dsimp only
  split
  · exact .same s
  · exact settleSelect_keepsSettled s []

theorem writeRunsOut_keepsSettled (s : State) (c : Chan) : s.KeepsSettled (s.writeRunsOut c) := by
  unfold writeRunsOut
  split
  · exact .same s
  · split
    · exact settleSelect_keepsSettled s []
    · exact .same s

/-! ### Referrals, and the gates -/

theorem complete_keepsSettled (s : State) : s.KeepsSettled s.complete := by
  unfold complete
  split
  · exact .same s
  · exact settleSelect_keepsSettled s _

theorem referralRunsOut_keepsSettled (s : State) (i : Slot) : s.KeepsSettled (s.referralRunsOut i) := by
  unfold referralRunsOut
  split
  · exact .same s
  · split
    · exact settle_keepsSettled s _
    · exact .same s

theorem supervisionRunsOut_keepsSettled (s : State) : s.KeepsSettled s.supervisionRunsOut := by
  unfold supervisionRunsOut
  split
  · exact .same s
  · exact settle_keepsSettled s _

theorem beamMoves_keepsSettled (s : State) (c : Chan) (beam : Beam) (broken : Bool) :
    s.KeepsSettled (s.beamMoves c beam broken) := by
  unfold beamMoves
  split
  · exact .same s
  · exact settleSelect_keepsSettled s _

theorem evacuateOn_keepsSettled (s : State) : s.KeepsSettled s.evacuateOn := by
  unfold evacuateOn
  dsimp only
  split
  · exact .of_basis rfl
  · exact settle_keepsSettled s []

theorem windowRunsOut_keepsSettled (s : State) (c : Chan) : s.KeepsSettled (s.windowRunsOut c) := by
  unfold windowRunsOut
  split
  · exact settleSelect_keepsSettled s []
  · exact .same s

theorem suspensionRunsOut_keepsSettled (s : State) (c : Chan) : s.KeepsSettled (s.suspensionRunsOut c) := by
  unfold suspensionRunsOut
  split
  · exact settleSelect_keepsSettled s []
  · exact .same s

theorem holdRunsOut_keepsSettled (s : State) : s.KeepsSettled s.holdRunsOut := by
  unfold holdRunsOut
  split
  · exact .same s
  · split
    · exact settle_keepsSettled s []
    · exact .of_basis rfl

/-! ### Start-up and power -/

theorem startUp_derived (s : State) (cause : StartCause) (found : Found) : ChannelsDerived (s.startUp cause found) :=
  (channelsDerived_iff _).mpr fun _ => startUp_settled s cause found

theorem supplyDip_derived (hs : ChannelsDerived s) : ChannelsDerived (s.whenRunning State.goInactive) := by
  unfold whenRunning
  split
  · exact nofun
  · exact hs

end State

open State

/-! ### Every command, and every step -/

/-- Every command keeps the channels in their derived states. -/
theorem exec_derived {i : Instr} {s t : State} (hs : ChannelsDerived s) (h : exec i s = .next t) :
    ChannelsDerived t := by
  cases i <;> obtain rfl := Host.Outcome.next.inj h
  case powerOn found => exact startUp_derived s _ found
  case supplyDip => exact supplyDip_derived hs
  case supplyRecovered found =>
    split
    · exact startUp_derived s _ found
    · exact hs
  case commandStartUp found =>
    refine whenRunning_derived ?_ hs
    split
    · exact .of_settled (startUp_settled s _ found)
    · exact .same s
  case poll => exact request_basis (fun _ => rfl) hs
  case status => exact request_basis (fun _ => rfl) hs
  case statusClear => exact request_basis (fun _ => rfl) hs
  case restart => exact request_basis actRestart_basis hs
  case unknownKind => exact whenRunning_derived (.of_basis rfl) hs
  case broadcastIgnored => exact whenRunning_derived (.of_basis rfl) hs
  case busFrameDiscarded why => exact whenRunning_derived (by cases why <;> exact .of_basis rfl) hs
  case clockSet day secs => exact request_basis (fun s => actClockSet_basis s day secs) hs
  case clockSecond =>
    refine whenRunning_derived ?_ hs
    split
    · exact .same s
    · exact .of_basis (activatePending_basis _ _)
  case callOpen => exact request_derived (fun s => actCallOpen_keepsSettled s _ _ _ _ _ _) hs
  case boardStart =>
    exact request_derived (fun s => stateMessage_keepsSettled fun b =>
      enteredReply_keepsSettled (settle_keepsSettled s [])) hs
  case lastCall =>
    exact request_derived (fun s => stateMessage_keepsSettled fun b =>
      enteredReply_keepsSettled (settle_keepsSettled s [])) hs
  case castOff =>
    exact request_derived (fun s => stateMessage_keepsSettled fun b =>
      enteredReply_keepsSettled (settle_keepsSettled s [])) hs
  case callCancel =>
    exact request_derived (fun s => stateMessage_keepsSettled fun b =>
      enteredReply_keepsSettled (settle_keepsSettled s [])) hs
  case callQuery => exact request_basis (fun s => by unfold actCallQuery; split <;> rfl) hs
  case callCollect =>
    exact request_derived (fun s => stateMessage_keepsSettled fun b =>
      ok_keepsSettled (settle_keepsSettled s [])) hs
  case aboardAdjust => exact request_derived (fun s => actAboardAdjust_keepsSettled s _ _ _) hs
  case channelQuery => exact request_basis (fun s => by unfold actChannelQuery; split <;> rfl) hs
  case channelService => exact request_derived (fun s => actChannelService_keepsSettled s _ _) hs
  case channelRelease => exact request_derived (fun s => actChannelRelease_keepsSettled s _ _) hs
  case channelRestore => exact request_derived (fun s => actChannelRestore_keepsSettled s _) hs
  case egressEnter => exact request_derived actEgressEnter_keepsSettled hs
  case egressClear => exact request_derived actEgressClear_keepsSettled hs
  case loadBegin => exact request_basis (fun s => actLoadBegin_basis s _ _ _ _) hs
  case loadSegment => exact request_basis (fun s => actLoadSegment_basis s _ _ _) hs
  case loadCommit => exact request_basis actLoadCommit_basis hs
  case loadAbort => exact request_basis actLoadAbort_basis hs
  case denyEdit => exact request_basis (fun s => actDenyEdit_basis s _ _ _) hs
  case tableQuery => exact request_basis (fun s => actTableQuery_basis s _) hs
  case allotSet => exact request_basis (fun s => actAllotSet_basis s _ _ _ _ _) hs
  case allotRemove => exact request_basis (fun s => actAllotRemove_basis s _) hs
  case allotQuery => exact request_basis (fun s => actAllotQuery_basis s _) hs
  case referAnswer => exact request_derived (fun s => actReferAnswer_keepsSettled s _ _ _ _) hs
  case deskCheck => exact request_derived (fun s => actDeskCheck_keepsSettled s _ _) hs
  case settingsGet => exact request_basis (fun s => actSettingsGet_basis s _) hs
  case settingsSet => exact request_derived (fun s => actSettingsSet_keepsSettled s _ _) hs
  case settingsStore => exact request_basis actSettingsStore_basis hs
  case storeWriteEnd => exact whenRunning_derived (.of_basis (endStore_basis s _)) hs
  case settingsReload => exact request_derived actSettingsReload_keepsSettled hs
  case settingsDefault => exact request_derived actSettingsDefault_keepsSettled hs
  case present c body =>
    refine whenRunning_derived (hearReader_keepsSettled fun u => whenUp_keepsSettled ?_) hs
    split
    · exact .same u
    · exact takePresent_keepsSettled u c _
  case withdraw c body =>
    refine whenRunning_derived (hearReader_keepsSettled fun u => whenUp_keepsSettled ?_) hs
    split
    · exact .same u
    · exact .of_basis (takeWithdraw_basis u c _)
  case writeResult c body =>
    refine whenRunning_derived (hearReader_keepsSettled fun u => whenUp_keepsSettled ?_) hs
    split
    · exact .same u
    · exact takeWriteResult_keepsSettled u c _ _
  case alive c => exact whenRunning_derived (hearReader_keepsSettled .same) hs
  case ready c => exact whenRunning_derived (hearReader_keepsSettled fun u => takeReady_keepsSettled u c) hs
  case readerFrameDiscarded c why =>
    refine whenRunning_derived ?_ hs
    cases why with
    | damaged => exact .of_basis (setPort_basis s c Iff.rfl)
    | wrongKind => exact hearReader_keepsSettled .same
    | malformed => exact hearReader_keepsSettled .same
  case readerFrameSent c => exact whenRunning_derived (.of_basis (frameSent_basis s c)) hs
  case attachTimerExpiry c => exact whenRunning_derived (.of_basis (attachRunsOut_basis s c)) hs
  case readerInactivityExpiry c => exact whenRunning_derived (inactivityRunsOut_keepsSettled s c) hs
  case writeTimerExpiry c => exact whenRunning_derived (writeRunsOut_keepsSettled s c) hs
  case validationCompletion => exact whenRunning_derived (complete_keepsSettled s) hs
  case referralTimerExpiry i => exact whenRunning_derived (referralRunsOut_keepsSettled s i) hs
  case supervisionTimerExpiry => exact whenRunning_derived (supervisionRunsOut_keepsSettled s) hs
  case loadInactivityExpiry => exact whenRunning_derived (.of_basis (loadRunsOut_basis s)) hs
  case dwellTimerExpiry b =>
    refine whenRunning_derived ?_ hs
    split
    · exact settle_keepsSettled s []
    · exact .same s
  case lastCallTimerExpiry b =>
    refine whenRunning_derived ?_ hs
    split
    · exact settle_keepsSettled s []
    · exact .same s
  case reportTimerExpiry =>
    refine whenRunning_derived ?_ hs
    split
    · exact .same s
    · split
      · exact .of_basis rfl
      · exact .of_basis ((queueReport_basis _ .b1).trans (queueReport_basis s .b0))
  case passWindowExpiry c => exact whenRunning_derived (windowRunsOut_keepsSettled s c) hs
  case suspensionTimerExpiry c => exact whenRunning_derived (suspensionRunsOut_keepsSettled s c) hs
  case obstructionTimerExpiry c => exact whenRunning_derived (.of_basis (obstructionRunsOut_basis s c)) hs
  case minimumHoldExpiry => exact whenRunning_derived (holdRunsOut_keepsSettled s) hs
  case beamEvent c beam broken => exact whenRunning_derived (beamMoves_keepsSettled s c beam broken) hs
  case rampUnsafe c => exact whenRunning_derived (settle_keepsSettled s []) hs
  case rampSafe c => exact whenRunning_derived (settle_keepsSettled s []) hs
  case evacuateActive => exact whenRunning_derived (evacuateOn_keepsSettled s) hs
  case evacuateInactive => exact whenRunning_derived (.of_basis rfl) hs
  case busReplySent => exact whenRunning_derived (by split <;> exact .of_basis rfl) hs

/-- The passing of time keeps the channels in their derived states. -/
theorem idle_derived {s : State} (hs : ChannelsDerived s) : ChannelsDerived s.idle :=
  whenRunning_derived (.of_basis (tick_basis s)) hs

end Sys2Proof.Machine

open Sys2Proof.Machine Sys2Proof.Machine.State

/-- Settles O7: an event either leaves all that the derivation rests on, or ends with every channel derived anew. -/
theorem channelsStayDerived : Obligations.ChannelsStayDerived := by
  intro s t hs h
  unfold step at h
  split at h
  · obtain rfl := Host.Outcome.next.inj h
    exact idle_derived hs
  · next rest _ =>
    have taken : s.KeepsSettled { s with pending := rest } := .of_basis rfl
    exact exec_derived ((channelsDerived_iff _).mpr fun hrun => taken ((channelsDerived_iff s).mp hs hrun)) h
end

section
/-! The start-up as a whole: what it finds in the stored image, what it clears, and the channels as it first derives
them. -/

namespace Sys2Proof.Machine.State

/-! ### The first derivation of a channel (R75) -/

theorem firstDerivation_chan_other (u : State) {c d : Chan} (hd : c ≠ d) : (u.firstDerivation d).chan c = u.chan c :=
  (chan_setChan ..).trans (if_neg hd)

/-- The first derivation of one channel does not touch that of another. -/
theorem firstDerivation_after (u : State) {c d : Chan} (hd : c ≠ d) :
    ((u.firstDerivation d).firstDerivation c).chan c = (u.firstDerivation c).chan c := by
  have derive := firstDerivation_same u d c
  rw [firstDerivation, chan_setChan, if_pos rfl, firstDerivation_chan_other u hd, derive.deriveState, derive.lines,
    firstDerivation, chan_setChan, if_pos rfl]

variable (s : State) (cause : StartCause) (found : Found)

theorem firstDerivation_frame (u : State) (c : Chan) : ∃ k, u.firstDerivation c = { u with channels := k } := ⟨_, rfl⟩

/-- A start-up derives the channels of the part it has cleared, and nothing else (R75). -/
theorem startUp_frame : ∃ k, s.startUp cause found = { s.started cause found with channels := k } := by
  rw [startUp_eq]
  generalize s.started cause found = u
  obtain ⟨k0, h0⟩ := firstDerivation_frame u .c0
  obtain ⟨k1, h1⟩ := firstDerivation_frame { u with channels := k0 } .c1
  obtain ⟨k2, h2⟩ := firstDerivation_frame { u with channels := k1 } .c2
  obtain ⟨k3, h3⟩ := firstDerivation_frame { u with channels := k2 } .c3
  exact ⟨k3, by rw [h0, h1, h2, h3]⟩

theorem startUp_chan (c : Chan) :
    (s.startUp cause found).chan c = ((s.started cause found).firstDerivation c).chan c := by
  rw [startUp_eq]
  cases c with
  | c0 =>
    rw [firstDerivation_chan_other _ (by decide), firstDerivation_chan_other _ (by decide),
      firstDerivation_chan_other _ (by decide)]
  | c1 =>
    rw [firstDerivation_chan_other _ (by decide), firstDerivation_chan_other _ (by decide),
      firstDerivation_after _ (by decide)]
  | c2 =>
    rw [firstDerivation_chan_other _ (by decide), firstDerivation_after _ (by decide),
      firstDerivation_after _ (by decide)]
  | c3 =>
    rw [firstDerivation_after _ (by decide), firstDerivation_after _ (by decide), firstDerivation_after _ (by decide)]

/-! ### The part as a start-up clears it (R185) -/

/-- The first notices of a start-up (R163, R185). -/
def startNotices (t : State) (cause : StartCause) (found : Found) : List (Nat × Notice) :=
  (1, .restarted cause t.settings.fault t.bus.address t.bus.source t.settings.writeCount) ::
    if found.evacuate then [(2, .egressEntered .line (.of fun c => (some (t.cfg.posture.get c), 0, 0)))] else []

theorem started_notices : (s.started cause found).notices =
    { queue := (s.cleared cause found).startNotices cause found
      dropped := false
      nextSeq := if found.evacuate then 3 else 2 } := by
  unfold started startNotices
  cases found.evacuate with
  | false => rfl
  | true =>
    rw [if_pos rfl, startEgress_eq]
    rfl

theorem started_egress : (s.started cause found).egress =
    if found.evacuate then (s.cleared cause found).egressOf .line else .atStart false := by
  unfold started
  split
  · rw [startEgress_eq]
    rfl
  · next h =>
    rw [← Bool.eq_false_iff.mpr h]
    rfl

theorem started_cleared : s.started cause found = { s.cleared cause found with
    egress := (s.started cause found).egress, notices := (s.started cause found).notices } := by
  obtain ⟨e, q, h⟩ := started_frame s cause found
  rw [h]

theorem started_call (b : Berth) : (s.started cause found).call b = .zeroed := by
  rw [started_cleared]
  exact PerBerth.get_same ..

theorem started_claimsOf (c : Chan) : (s.started cause found).claimsOf c = .none := by
  rw [started_cleared]
  exact PerChan.get_same ..

theorem started_chan (c : Chan) : (s.started cause found).chan c =
    .atStart (found.beamA.get c) (found.beamB.get c) (found.rampSafe.get c) := by
  rw [started_cleared]
  exact PerChan.get_of ..

theorem started_callStateOf (c : Chan) : (s.started cause found).callStateOf c =
    ((s.started cause found).berthOf c).map fun _ => .vacant := by
  unfold callStateOf
  simp only [started_call]
  rfl

/-- No line is UP, no call open and no claim there at a start-up, so a channel that egress does not hold is
OUT_OF_SERVICE with both lines inactive (R54, R56, R75). -/
theorem started_ordinary (c : Chan) : (s.started cause found).ordinaryState c = .outOfService ∧
    (s.started cause found).ordinaryLines c .outOfService = (false, false) := by
  unfold ordinaryState ordinaryLines
  rw [started_callStateOf]
  cases (s.started cause found).berthOf c with
  | none => simp [started_claimsOf, ChannelClaims.none]
  | some b => simp [started_claimsOf, ChannelClaims.none, started_down, CallState.isOpen]

theorem started_deriveState (c : Chan) : (s.started cause found).deriveState c =
    if found.evacuate then .egressHeld else .outOfService := by
  unfold deriveState
  rw [started_egress]
  cases found.evacuate with
  | false =>
    rw [(started_ordinary s cause found c).1]
    cases c <;> rfl
  | true => rfl

/-- Egress found active at a start-up opens the channels whose posture is OPEN, and the others stay closed (R56,
R166). -/
theorem started_lines (c : Chan) :
    (s.started cause found).lines c (if found.evacuate then .egressHeld else .outOfService) =
    (found.evacuate && decide ((s.cleared cause found).cfg.posture.get c = .opened),
      found.evacuate && decide ((s.cleared cause found).cfg.posture.get c = .opened)) := by
  obtain ⟨hstate, hlines⟩ := started_ordinary s cause found c
  cases hfound : found.evacuate with
  | false => exact hlines
  | true =>
    have hposture : (s.started cause found).egress.posture.get c =
        some ((s.cleared cause found).cfg.posture.get c) := by
      rw [started_egress, hfound]
      exact PerChan.get_of ..
    unfold lines
    rw [if_pos rfl, hposture]
    cases (s.cleared cause found).cfg.posture.get c with
    | opened => rfl
    | closed => rfl
    | asIs =>
      rw [hstate, hlines]
      rfl

/-! ### The start-up whole -/

/-- A channel after a start-up (R58, R75). -/
theorem startUp_channel (c : Chan) : (s.startUp cause found).chan c =
    { Channel.atStart (found.beamA.get c) (found.beamB.get c) (found.rampSafe.get c) with
      state := if found.evacuate then .egressHeld else .outOfService
      unlockIn := found.evacuate && decide ((s.cleared cause found).cfg.posture.get c = .opened)
      unlockOut := found.evacuate && decide ((s.cleared cause found).cfg.posture.get c = .opened) } := by
  rw [startUp_chan, firstDerivation, chan_setChan, if_pos rfl, started_chan, started_deriveState, started_lines]

/-- A start-up but for its channels (R185). -/
theorem startUp_cleared : ∃ k, s.startUp cause found = { s.cleared cause found with
    egress := if found.evacuate then (s.cleared cause found).egressOf .line else .atStart false
    notices :=
      { queue := (s.cleared cause found).startNotices cause found
        dropped := false
        nextSeq := if found.evacuate then 3 else 2 }
    channels := k } := by
  obtain ⟨k, h⟩ := startUp_frame s cause found
  refine ⟨k, ?_⟩
  rw [h, started_cleared, started_egress, started_notices]

/-- The tracker that two beams show (R58). -/
theorem found_eq (a b : Bool) : Tracker.found a b = match a, b with
    | false, false => .clear
    | true, false => .outer
    | false, true => .inner
    | true, true => .spannedIn := by
  cases a <;> cases b <;> rfl

end Sys2Proof.Machine.State

open Sys2Proof Sys2Proof.Machine Sys2Proof.Machine.State

/-- Settles O18: a start-up clears the part, enters egress where the line is active, and derives the channels. -/
theorem startUpStartsAfresh : Obligations.StartUpStartsAfresh := by
  constructor
  · intro s found i cause image hi himage
    have hexec : exec i s = .next (s.startUp cause found) := by
      rcases hi with ⟨rfl, rfl⟩ | ⟨rfl, rfl, hpower⟩ | ⟨rfl, rfl, hrun, hawaited, hreply⟩
      · rfl
      · exact congrArg Host.Outcome.next (if_pos hpower)
      · refine congrArg Host.Outcome.next ((whenRunning_running hrun _).trans (if_pos ?_))
        rw [hawaited, hreply]
        rfl
    have hchan := startUp_channel s cause found
    obtain ⟨k, h⟩ := startUp_cleared s cause found
    refine ⟨_, hexec, ?_⟩
    have hsettings : (s.cleared cause found).settings = {
        working := (loadImage image).getD .default
        image := image
        writeCount := s.settings.writeCount
        storing := none
        fault := (loadImage image).isNone } := by
      rw [himage]
      rfl
    have hcfg : (s.startUp cause found).cfg = (s.cleared cause found).cfg := by
      rw [h]
      rfl
    have haddress : (s.cleared cause found).bus.address =
        (addressFrom found.straps (s.cleared cause found).cfg.busAddress).1 ∧
        (s.cleared cause found).bus.source = (addressFrom found.straps (s.cleared cause found).cfg.busAddress).2 :=
      ⟨rfl, rfl⟩
    simp only [hchan, hcfg]
    rw [h]
    refine ⟨rfl, rfl, rfl, rfl, rfl, rfl, rfl, rfl, rfl, rfl, hsettings, rfl, rfl, rfl, rfl, rfl, rfl,
      fun hstraps => ?_, fun hstraps => ?_, ?_, ?_, ?_, rfl, ?_, rfl,
      fun c => ⟨rfl, rfl, rfl, rfl, rfl, rfl, trivial, trivial, trivial, rfl, rfl, rfl,
        found_eq _ _, ?_⟩, rfl⟩
    · dsimp only
      rw [haddress.1, haddress.2, addressFrom, if_neg hstraps]
      exact ⟨rfl, rfl⟩
    · dsimp only
      rw [haddress.1, haddress.2, addressFrom, if_pos hstraps]
      exact ⟨rfl, rfl⟩
    · cases found.evacuate <;> rfl
    · cases hfound : found.evacuate
      · rfl
      · exact hfound
    · cases found.evacuate <;> rfl
    · rfl
    · simp [Channel.atStart, Config.obstructionMs]
  · intro s found hnot
    refine congrArg Host.Outcome.next (whenRunning_same (if_neg ?_))
    rcases hnot with hawaited | hreply
    · simp [hawaited]
    · simp [hreply]
end

section
/-! The notices with which an event ends: CHANNEL_STATE for each channel whose state or lines changed, channel 0 to
channel 3. -/

namespace Sys2Proof.Machine.State

/-! ### The CHANNEL_STATE notices of an event (R55) -/

/-- The state of a channel and the levels of its unlock lines, which CHANNEL_STATE reports. -/
def face (s : State) (c : Chan) : ChannelState × Bool × Bool :=
  ((s.chan c).state, (s.chan c).unlockIn, (s.chan c).unlockOut)

theorem face_of_tallies {s t : State} {c : Chan} {m : Option Mode} {x : Tallies}
    (h : t.chan c = { s.chan c with modeShown := m, tallies := x }) : t.face c = s.face c := by
  rw [face, face, h]

/-- A channel set to one of the same state and lines moves no face. -/
theorem face_setChan {s : State} {c : Chan} {k : Channel} (h : (k.state, k.unlockIn, k.unlockOut) = s.face c)
    (d : Chan) : (s.setChan c k).face d = s.face d := by
  rw [face, chan_setChan]
  split
  · next hd =>
    rw [hd]
    exact h
  · rfl

/-- The notice of a channel depends on its faces and its berth alone. -/
theorem channelNotice_congr {s s' t t' : State} {c : Chan} (hsettings : s'.settings = s.settings)
    (hs : s'.face c = s.face c) (ht : t'.face c = t.face c) : s'.channelNotice t' c = s.channelNotice t c := by
  obtain ⟨hstate, hin, hout⟩ : _ ∧ _ ∧ _ := by simpa only [face, Prod.mk.injEq] using hs
  obtain ⟨hstate', hin', hout'⟩ : _ ∧ _ ∧ _ := by simpa only [face, Prod.mk.injEq] using ht
  have hberth : s'.berthOf c = s.berthOf c := congrArg (fun k => k.working.berthOf.get c) hsettings
  simp only [channelNotice, hstate, hin, hout, hstate', hin', hout', hberth]

theorem channelNotice_self {s t : State} {c : Chan} (h : t.face c = s.face c) : s.channelNotice t c = [] := by
  rw [channelNotice_congr rfl rfl h (t := s)]
  simp [channelNotice]

theorem settleChannel_face_other (s : State) {c d : Chan} (hd : d ≠ c) : (s.settleChannel c).face d = s.face d := by
  obtain ⟨x, h⟩ := settleChannel_chan_other s hd
  exact face_of_tallies h

/-- A channel's part of an event queues its own notice and no other. -/
theorem settleChannel_notices (s : State) (c : Chan) :
    (s.settleChannel c).notices = (s.channelNotice (s.settleChannel c) c).foldl addNotice s.notices := by
  have hface : (s.settleChannel c).face c = (s.takeState c).face c := by
    obtain ⟨m, x, h⟩ := settleChannel_chan_self s c
    exact face_of_tallies h
  have hreported : (s.settleChannel c).notices = (reportState s (s.takeState c) c).notices := by
    obtain ⟨_, _, hshown⟩ := showMode_frame (tellArbiter s (reportState s (s.takeState c) c) c) c
    obtain ⟨_, _, _, htold⟩ := tellArbiter_frame s (reportState s (s.takeState c) c) c
    rw [settleChannel, hshown, htold]
  rw [hreported, channelNotice_congr rfl rfl hface]
  simp only [reportState, channelNotice, Bool.or_eq_true, decide_eq_true_eq, or_assoc,
    ne_comm (a := (s.chan c).state), ne_comm (a := (s.chan c).unlockIn), ne_comm (a := (s.chan c).unlockOut)]
  split
  · rw [queue_notices]
    rfl
  · rfl

theorem foldl_settleChannel_face {cs : List Chan} {c : Chan} (hc : c ∉ cs) (s : State) :
    (cs.foldl settleChannel s).face c = s.face c := by
  induction cs generalizing s with
  | nil => rfl
  | cons d cs ih =>
    rw [List.foldl_cons, ih (fun h => hc (List.mem_cons_of_mem _ h))]
    exact settleChannel_face_other s fun h => hc (h ▸ List.mem_cons_self)

theorem foldl_settleChannel_notices {cs : List Chan} (hcs : cs.Nodup) (s : State) :
    (cs.foldl settleChannel s).notices =
      (cs.flatMap (s.channelNotice (cs.foldl settleChannel s))).foldl addNotice s.notices := by
  induction cs generalizing s with
  | nil => rfl
  | cons c cs ih =>
    obtain ⟨hc, hcs⟩ := List.nodup_cons.mp hcs
    have hsettings : (s.settleChannel c).settings = s.settings := (settleChannel_same s c c).settings
    have hown : s.channelNotice (s.settleChannel c) c =
        s.channelNotice (cs.foldl settleChannel (s.settleChannel c)) c :=
      channelNotice_congr rfl rfl (foldl_settleChannel_face hc _).symm
    have hothers : cs.flatMap ((s.settleChannel c).channelNotice (cs.foldl settleChannel (s.settleChannel c))) =
        cs.flatMap (s.channelNotice (cs.foldl settleChannel (s.settleChannel c))) :=
      List.flatMap_congr fun d hd => channelNotice_congr hsettings
        (settleChannel_face_other s fun h => hc (h ▸ hd)) rfl
    rw [List.foldl_cons, ih hcs, hothers, settleChannel_notices, hown, List.flatMap_cons, List.foldl_append]

/-- The channels' part of an event queues the notices of the channels whose state or lines it changed, in order. -/
theorem settleChannels_notices (s : State) :
    s.settleChannels.notices = (s.channelNotices s.settleChannels).foldl addNotice s.notices := by
  have hfold : s.settleChannels = Chan.all.foldl settleChannel s := by
    simp only [settleChannels, Chan.all, List.foldl_cons, List.foldl_nil]
  rw [hfold]
  exact foldl_settleChannel_notices (by decide) s

/-- An event that moves no headroom, and no face of a channel before its end, queues its own notices and then the
CHANNEL_STATE notices. -/
theorem settle_reports {before s u : State} {ns : List Notice} (hnotices : u.notices = s.notices)
    (hsettings : u.settings = s.settings) (hface : ∀ c, u.face c = s.face c)
    (hheadroom : ∀ b, u.headroom b = before.headroom b) :
    s.QueuesInOrder (settle before (u.queueAll ns) [])
      (ns ++ s.channelNotices (settle before (u.queueAll ns) [])) := by
  have hcross : ∀ b, crossing before (u.queueAll ns) b = [] := by
    obtain ⟨q, hq⟩ := queueAll_frame u ns
    rw [hq]
    exact fun b => crossing_same (hheadroom b)
  have hnamed : (u.queueAll ns).channelNotices (u.queueAll ns).settleChannels =
      s.channelNotices (u.queueAll ns).settleChannels := by
    generalize (u.queueAll ns).settleChannels = t
    obtain ⟨q, hq⟩ := queueAll_frame u ns
    rw [hq]
    exact List.flatMap_congr fun c _ => channelNotice_congr hsettings (hface c) rfl
  refine queuesInOrder_of _ _ _ (.of_eq ?_)
  rw [settle_eq, hcross, hcross]
  show (u.queueAll ns).settleChannels.notices = _
  rw [settleChannels_notices, hnamed, queueAll_notices, queueAll_notices, List.foldl_append, hnotices]
  rfl

theorem settle_reportsAlone {before s u : State} (hnotices : u.notices = s.notices)
    (hsettings : u.settings = s.settings) (hface : ∀ c, u.face c = s.face c)
    (hheadroom : ∀ b, u.headroom b = before.headroom b) :
    s.QueuesInOrder (settle before u []) (s.channelNotices (settle before u [])) := by
  have h := settle_reports (ns := []) hnotices hsettings hface hheadroom
  rwa [show u.queueAll [] = u from rfl, List.nil_append] at h

end Sys2Proof.Machine.State
end

section
/-! CHANNEL_SERVICE, CHANNEL_RESTORE and the ramp lines. -/

namespace Sys2Proof

theorem PerChan.set_get_self {α : Type} (p : PerChan α) (c : Chan) : p.set c (p.get c) = p := by cases c <;> rfl

namespace Machine.State

variable {s u : State} {c : Chan}

/-! ### Requests that end with the channels derived anew -/

/-- A request whose owner takes it as one event: the event's end, with the reply at the bus port. -/
theorem request_settled {kind : MsgKind} {dest : Dest} {act : State → Act} {body : ReplyBody}
    (hrun : s.power = .running) (hact : act s.beginRequest = .ok (settle s.beginRequest u []) body)
    (hbus : u.bus = s.beginRequest.bus) :
    s.request kind dest .fits act = { settle s.beginRequest u [] with bus := s.repliedBus kind dest .ok body } :=
  request_acts hrun hact ((settle_bus ..).trans hbus)

/-! ### CHANNEL_SERVICE (R65, R96) -/

theorem actChannelService_badField (s : State) {n : Nat} {value : Option ServiceFlag} (h : 3 < n ∨ value = none) :
    actChannelService n value s = .refuse s .badField := by
  unfold actChannelService
  rcases h with h | rfl
  · rw [Chan.ofNum?_eq_none h]
  · cases Chan.ofNum? n <;> rfl

theorem actChannelService_num (s : State) (c : Chan) (flag : ServiceFlag) : actChannelService c.num (some flag) s =
    .ok (s.setService c flag) (.service c ((s.setService c flag).chan c).service
      ((s.setService c flag).chan c).state) := by
  unfold actChannelService
  rw [Chan.ofNum?_num]

/-- A channel's service flag has changed, and with OUT its pending presentation is refused (R65, R96). -/
def served (s : State) (c : Chan) (flag : ServiceFlag) : State :=
  (s.setChan c { s.chan c with service := flag }).refuseWith c (if flag = .outOfService then some .notServed else none)

theorem setService_same {flag : ServiceFlag} (h : (s.chan c).service = flag) : s.setService c flag = s := if_pos h

theorem setService_changed {flag : ServiceFlag} (h : (s.chan c).service ≠ flag) :
    s.setService c flag = settle s (s.served c flag) [] := by
  refine (if_neg h).trans ?_
  cases flag <;> rfl

theorem served_frame (s : State) (c : Chan) (flag : ServiceFlag) :
    ∃ a k p, s.served c flag = { s with arbiter := a, channels := k, ports := p } :=
  refuseWith_frame (s.setChan c { s.chan c with service := flag }) c _

theorem served_follow (s : State) (c : Chan) (flag : ServiceFlag) :
    (s.setChan c { s.chan c with service := flag }).ChannelsFollow (s.served c flag) := refuseWith_follow _ c _

/-- A change of the service flag moves no channel's state or lines before the event's end. -/
theorem served_face (s : State) (c d : Chan) (flag : ServiceFlag) : (s.served c flag).face d = s.face d := by
  have hset : (s.setChan c { s.chan c with service := flag }).face d = s.face d := face_setChan (by rfl) d
  cases flag with
  | inService => exact hset
  | outOfService =>
    obtain ⟨x, hx⟩ := refusePending_chan (s.setChan c { s.chan c with service := .outOfService }) c d .notServed
    exact (face_of_tallies hx).trans hset

theorem served_place (s : State) (c : Chan) : (s.served c .outOfService).arbiter.places.get c = none :=
  (refusePending_places ..).trans (if_pos rfl)

/-- An event that leaves the channels and the notices queues none. -/
theorem inOrder_of_same {t : State} (hk : t.channels = s.channels) (hn : t.notices = s.notices) :
    s.QueuesInOrder t (s.channelNotices t) := by
  have quiet : ∀ d, s.channelNotice t d = [] := fun d => channelNotice_self (by rw [face, face, chan, chan, hk])
  rw [channelNotices, funext quiet]
  exact queuesInOrder_of s t [] (.of_eq hn)

end Machine.State

end Sys2Proof

open Sys2Proof Sys2Proof.Machine Sys2Proof.Machine.State

/-- Settles O33: a flag that changes is one event, which ends with the channels derived anew. -/
theorem channelServiceSetsTheFlag : Obligations.ChannelServiceSetsTheFlag := by
  intro s hrun
  refine ⟨fun n value h => congrArg Host.Outcome.next (request_refused hrun (actChannelService_badField _ h)),
    fun c flag => ?_⟩
  have hact := actChannelService_num s.beginRequest c flag
  by_cases hflag : (s.chan c).service = flag
  · rw [setService_same (s := s.beginRequest) hflag, show (s.beginRequest.chan c).service = flag from hflag] at hact
    have hset : (s.setChan c { s.chan c with service := flag }).channels = s.channels := by
      rw [← hflag]
      exact PerChan.set_get_self ..
    refine ⟨_, congrArg Host.Outcome.next (request_answered hrun hact), rfl, .same hset.symm rfl rfl,
      inOrder_of_same rfl rfl, fun h => absurd hflag h, fun _ => ⟨rfl, rfl, rfl, rfl⟩⟩
  · rw [setService_changed (s := s.beginRequest) hflag] at hact
    obtain ⟨a, k, p, hframe⟩ := served_frame s.beginRequest c flag
    have hfollow := (served_follow s.beginRequest c flag).trans (settle_follow s.beginRequest _ [])
    have hservice : ((settle s.beginRequest (s.beginRequest.served c flag) []).chan c).service = flag := by
      rw [(hfollow.gates.gate c).service, chan_setChan, if_pos rfl]
    have hnotices := settle_reportsAlone (before := s.beginRequest) (s := s) (u := s.beginRequest.served c flag)
      (by rw [hframe]; rfl) (by rw [hframe]; rfl) (fun d => served_face s.beginRequest c d flag)
      (fun b => headroom_congr (by rw [hframe]) (by rw [hframe]) b)
    have hempty : flag = .outOfService →
        (settle s.beginRequest (s.beginRequest.served c flag) []).arbiter.places.get c = none := by
      rintro rfl
      exact settle_places _ _ [] c (served_place ..)
    have hsettled := settle_frame s.beginRequest (s.beginRequest.served c flag) []
    have hreply := request_settled (kind := .channelService) (dest := .part) hrun hact (by rw [hframe])
    rw [hservice] at hreply
    generalize settle s.beginRequest (s.beginRequest.served c flag) [] = v at *
    refine ⟨_, congrArg Host.Outcome.next hreply, ?_, ChannelsFollow.replied (s := s.setChan c _) hfollow _, hnotices,
      fun _ => hempty, fun h => absurd h hflag⟩
    refine (framed_replied _ hsettled).trans ?_
    rw [hframe]
    rfl
end

section
/-! The ramp lines: a channel suspended and released. -/

namespace Sys2Proof.Machine.State

variable {s : State} {c : Chan} {b : Berth}

/-! ### The ramp lines (R54, R62, R63) -/

/-- A channel whose ramp is safe is not derived SUSPENDED (R54). -/
theorem deriveState_ne_suspended (h : (s.chan c).rampSafe = true) : s.deriveState c ≠ .suspended := by
  have hordinary : s.ordinaryState c ≠ .suspended := by
    simp only [ordinaryState, h, Bool.not_true, Bool.and_false, Bool.false_eq_true, if_false]
    repeat' split
    all_goals simp
  rw [deriveState]
  split
  · simp
  · exact hordinary

/-- A ramp that is not safe suspends a channel with an open call, where no egress or latch holds it (R54). -/
theorem deriveState_suspended (h : (s.chan c).rampSafe = false) (hactive : s.egress.active = false)
    (hlatch : s.egress.latch.get c = none) (hberth : s.berthOf c = some b) (hopen : (s.call b).state.isOpen = true) :
    s.deriveState c = .suspended := by
  have hcall : s.callStateOf c = some (s.call b).state := by rw [callStateOf, hberth, Option.map_some]
  simp only [deriveState, ordinaryState, hactive, hlatch, hcall, hopen, h]
  rfl

/-- A channel derived SUSPENDED locks both ways; at its entry its timer starts and the mark clears (R56, R62, R63). -/
theorem takeState_suspended (h : s.deriveState c = .suspended) :
    (s.takeState c).chan c = { s.chan c with
      state := .suspended
      unlockIn := false
      unlockOut := false
      suspensionTimer := if (s.chan c).state ≠ .suspended then some (s.cfg.suspendLimit * 1000)
        else (s.chan c).suspensionTimer
      limitReached := if (s.chan c).state ≠ .suspended then false else (s.chan c).limitReached } := by
  simp only [takeState, h, lines, ordinaryLines, chan_setChan, if_true, decide_true, Bool.true_and, decide_eq_true_eq]

/-- A channel derived in another state has no suspension timer (R63). -/
theorem takeState_released (h : s.deriveState c ≠ .suspended) :
    ((s.takeState c).chan c).state ≠ .suspended ∧ ((s.takeState c).chan c).suspensionTimer = none := by
  simp [takeState, h]

/-- After an event whose ramp is not safe the channel is SUSPENDED, locked both ways. -/
theorem settle_suspends (before : State) (h : s.deriveState c = .suspended) :
    ((settle before s []).chan c).state = .suspended ∧ ((settle before s []).chan c).unlockIn = false ∧
      ((settle before s []).chan c).unlockOut = false ∧
      ((s.chan c).state ≠ .suspended →
        ((settle before s []).chan c).suspensionTimer = some (s.cfg.suspendLimit * 1000) ∧
        ((settle before s []).chan c).limitReached = false) := by
  obtain ⟨m, x, hchan⟩ := settle_chan before s [] c
  rw [hchan, takeState_suspended h]
  exact ⟨rfl, rfl, rfl, fun hnew => ⟨if_pos hnew, if_pos hnew⟩⟩

/-- After an event whose ramp is safe the channel is not SUSPENDED, and its timer is stopped. -/
theorem settle_releases (before : State) (h : s.deriveState c ≠ .suspended) :
    ((settle before s []).chan c).state ≠ .suspended ∧ ((settle before s []).chan c).suspensionTimer = none := by
  obtain ⟨m, x, hchan⟩ := settle_chan before s [] c
  rw [hchan]
  exact takeState_released h

end Sys2Proof.Machine.State

open Sys2Proof Sys2Proof.Machine Sys2Proof.Machine.State

/-- Settles O36: the level of the ramp moves alone, and the event's end derives the channel from it. -/
theorem rampLinesSuspend : Obligations.RampLinesSuspend := by
  intro s c i safe hrun hi
  have hexec : exec i s = .next (settle s (s.setChan c { s.chan c with rampSafe := safe }) []) := by
    rcases hi with ⟨rfl, rfl⟩ | ⟨rfl, rfl⟩ <;> exact congrArg Host.Outcome.next (whenRunning_running hrun _)
  have hchan : (s.setChan c { s.chan c with rampSafe := safe }).chan c = { s.chan c with rampSafe := safe } :=
    (chan_setChan ..).trans (if_pos rfl)
  refine ⟨_, hexec, framed (settle_frame ..), settle_follow .., settle_reportsAlone rfl rfl (face_setChan (by rfl))
    fun b => rfl, fun b hactive hlatch hberth hopen => ⟨?_, ?_⟩⟩
  · rintro rfl
    obtain ⟨hstate, hin, hout, hentry⟩ :=
      settle_suspends s (deriveState_suspended (congrArg Channel.rampSafe hchan) hactive hlatch hberth hopen)
    rw [hchan] at hentry
    exact ⟨hstate, hin, hout, hentry⟩
  · rintro rfl
    exact settle_releases s (deriveState_ne_suspended (congrArg Channel.rampSafe hchan))
end

section
/-! Latched postures: CHANNEL_RESTORE releases them, the end of egress leaves them. -/

namespace Sys2Proof.Machine.State

variable {s t : State} {c : Chan}

/-! ### CHANNEL_RESTORE (R74, R170) -/

theorem actChannelRestore_badField (s : State) {n : Nat} (h : 3 < n) :
    actChannelRestore (.one n) s = .refuse s .badField := by
  simp only [actChannelRestore, Chan.ofNum?_eq_none h]

theorem actChannelRestore_active {target : RestoreTarget} (hactive : s.egress.active = true)
    (h : target = .all ∨ ∃ c : Chan, target = .one c.num) : actChannelRestore target s = .refuse s .wrongState := by
  rcases h with rfl | ⟨c, rfl⟩ <;> simp only [actChannelRestore, Chan.ofNum?_num, hactive, if_true]

/-- What a restore leaves of the state: the latches given, and the channels derived from them (R170). -/
structure Restores (s t : State) (latch : PerChan (Option Latch)) : Prop where
  frame : ∃ q a k p, t = { s with
    egress := { s.egress with latch := latch }, notices := q, arbiter := a, channels := k, ports := p }
  follow : s.ChannelsFollow t

/-- A restore that releases latches is one event. -/
theorem settle_restores (s : State) (latch : PerChan (Option Latch)) :
    s.Restores (settle s { s with egress := { s.egress with latch := latch } } []) latch :=
  ⟨settle_frame .., ChannelsFollow.trans (t := { s with egress := { s.egress with latch := latch } })
    (.same rfl rfl rfl) (settle_follow ..)⟩

/-- A restore of one channel: an event where it is latched, and nothing to do where it is not. -/
theorem actChannelRestore_one (hactive : s.egress.active = false) (c : Chan) :
    ∃ t, actChannelRestore (.one c.num) s = .ok t (.restored [restoredFigures s t c]) ∧
      s.Restores t (s.egress.latch.set c none) := by
  cases hlatch : s.egress.latch.get c with
  | none =>
    have hset : s.egress.latch.set c none = s.egress.latch := hlatch ▸ PerChan.set_get_self ..
    refine ⟨s, ?_, ⟨s.notices, s.arbiter, s.channels, s.ports, ?_⟩, .same rfl rfl rfl⟩
    · simp only [actChannelRestore, Chan.ofNum?_num, hactive, hlatch, Option.isSome_none, Bool.false_eq_true, if_false]
    · rw [hset]
  | some l =>
    refine ⟨_, ?_, settle_restores ..⟩
    simp only [actChannelRestore, Chan.ofNum?_num, hactive, hlatch, Option.isSome_some, Bool.false_eq_true, if_false,
      if_true, unlatch]

theorem foldl_unlatch (s : State) :
    Chan.all.foldl unlatch s = { s with egress := { s.egress with latch := .same none } } := rfl

theorem actChannelRestore_all (hactive : s.egress.active = false) :
    ∃ t, actChannelRestore .all s = .ok t (.restored (Chan.all.map (restoredFigures s t))) ∧
      s.Restores t (.same none) := by
  refine ⟨_, ?_, settle_restores ..⟩
  simp only [actChannelRestore, foldl_unlatch, hactive, Bool.false_eq_true, if_false]

/-- A restore's request: the latches given, and the reply. -/
theorem request_restores {target : RestoreTarget} {latch : PerChan (Option Latch)} {body : ReplyBody}
    (hrun : s.power = .running) (hact : actChannelRestore target s.beginRequest = .ok t body)
    (ht : s.beginRequest.Restores t latch) :
    s.request .channelRestore .part .fits (actChannelRestore target) =
      { t with bus := s.repliedBus .channelRestore .part .ok body } ∧
    { t with bus := s.repliedBus .channelRestore .part .ok body } = { s with
      bus := s.repliedBus .channelRestore .part .ok body
      egress := { s.egress with latch := latch }
      notices := t.notices
      arbiter := t.arbiter
      channels := t.channels
      ports := t.ports } ∧
    s.ChannelsFollow { t with bus := s.repliedBus .channelRestore .part .ok body } := by
  obtain ⟨⟨q, a, k, p, rfl⟩, hfollow⟩ := ht
  exact ⟨request_acts hrun hact rfl, rfl, hfollow.replied _⟩

/-! ### The end of egress (R167, R169) -/

/-- The latches that the postures of egress leave (R169). -/
def latchesLeft (s : State) : PerChan (Option Latch) := .of fun c => latchOf (s.egress.posture.get c)

/-- The controller as egress leaves it, before its notice (R169). -/
def egressOver (s : State) : State :=
  { s with egress :=
    { active := false
      byLine := false
      byCommand := false
      level := s.egress.level
      hold := none
      pendingClear := false
      posture := .same none
      latch := s.latchesLeft } }

/-- EGRESS_LEFT, with the latches and the egress tallies (R169). -/
def leftNotice (s : State) : Notice :=
  .egressLeft (.of fun c => (s.latchesLeft.get c, (s.chan c).tallies.egressIn, (s.chan c).tallies.egressOut))

theorem leaveEgress_eq (s : State) : s.leaveEgress = s.egressOver.queueAll [s.leftNotice] := rfl

theorem deriveState_latched {l : Latch} (h : s.egress.latch.get c = some l) : s.deriveState c = .egressHeld := by
  rw [deriveState, h, Option.isSome_some, Bool.or_true, if_pos rfl]

/-- The lines of a latched channel once no posture holds it (R170). -/
theorem lines_latched {l : Latch} (hposture : s.egress.posture.get c = none) (h : s.egress.latch.get c = some l) :
    s.lines c .egressHeld = (decide (l = .opened), decide (l = .opened)) := by
  simp only [lines, hposture, h]
  cases l <;> rfl

/-- A channel in the state that its causes derive, with its lines; held by a latch, with the latch's lines. -/
structure Latched (t : State) (c : Chan) (latch : Option Latch) : Prop where
  state : (t.chan c).state = t.deriveState c
  held : latch ≠ none → (t.chan c).state = .egressHeld
  lines : ((t.chan c).unlockIn, (t.chan c).unlockOut) = t.lines c (t.chan c).state
  opened : latch = some .opened → (t.chan c).unlockIn = true ∧ (t.chan c).unlockOut = true
  closed : latch = some .closed → (t.chan c).unlockIn = false ∧ (t.chan c).unlockOut = false

/-- A settled channel that no posture holds is as its latch says. -/
theorem SettledAt.latched (h : t.SettledAt c) (hposture : t.egress.posture.get c = none) :
    t.Latched c (t.egress.latch.get c) := by
  have held : ∀ {l}, t.egress.latch.get c = some l → (t.chan c).state = .egressHeld := fun hl =>
    h.state.trans (deriveState_latched hl)
  have driven : ∀ {l}, t.egress.latch.get c = some l →
      ((t.chan c).unlockIn, (t.chan c).unlockOut) = (decide (l = .opened), decide (l = .opened)) := fun hl => by
    rw [h.lines, held hl, lines_latched hposture hl]
  refine ⟨h.state, fun hl => ?_, h.lines, fun hl => ?_, fun hl => ?_⟩
  · obtain ⟨l, hl⟩ := Option.ne_none_iff_exists'.mp hl
    exact held hl
  · simpa using driven hl
  · simpa using driven hl

/-- What the end of egress leaves of the state, with a bus port that may hold the reply. -/
structure LeavesEgress (s t : State) (bus : Bus) : Prop where
  frame : t = { s.egressOver with
    bus := bus, notices := t.notices, arbiter := t.arbiter, channels := t.channels, ports := t.ports }
  follow : s.ChannelsFollow t
  channel : ∀ c, t.Latched c (s.latchesLeft.get c)
  order : s.QueuesInOrder t (s.leftNotice :: s.channelNotices t)

theorem LeavesEgress.of_beginRequest {bus : Bus} (h : s.beginRequest.LeavesEgress t bus) : s.LeavesEgress t bus :=
  ⟨h.frame, ⟨⟨h.follow.gates.gate, h.follow.gates.line⟩, h.follow.desk, h.follow.occupied, h.follow.place⟩, h.channel,
    h.order⟩

theorem leaveEgress_bus (s : State) : s.leaveEgress.bus = s.bus := by
  obtain ⟨e, q, h⟩ := leaveEgress_frame s
  rw [h]

theorem settle_leavesEgress (s : State) (bus : Bus) :
    s.LeavesEgress { settle s s.leaveEgress [] with bus := bus } bus := by
  have hframe := settle_queued_frame s s.egressOver [s.leftNotice] []
  have hfollow := ChannelsFollow.trans (s := s) (t := s.egressOver) (.same rfl rfl rfl)
    (settle_queued_follow s s.egressOver [s.leftNotice] [])
  have horder := settle_reports (before := s) (s := s) (u := s.egressOver) (ns := [s.leftNotice]) rfl rfl
    (fun _ => rfl) (fun _ => rfl)
  have hsettled := settle_settled s (s.egressOver.queueAll [s.leftNotice]) []
  rw [leaveEgress_eq]
  generalize settle s (s.egressOver.queueAll [s.leftNotice]) [] = v at *
  refine ⟨framed_replied bus hframe, ⟨⟨hfollow.gates.gate, hfollow.gates.line⟩, hfollow.desk, hfollow.occupied,
    hfollow.place⟩, fun c => ?_, queuesInOrder_bus horder bus⟩
  obtain ⟨q, a, k, p, rfl⟩ := hframe
  exact SettledAt.latched (.of_basis (hsettled c) rfl) (PerChan.get_same ..)

/-- The hold's run-out with a clear pending ends egress (R167). -/
theorem holdRunsOut_leaves (hhold : s.egress.hold = some 0) (hpending : s.egress.pendingClear = true) :
    { settle s s.leaveEgress [] with bus := s.bus } = s.holdRunsOut := by
  have hbus : (settle s s.leaveEgress []).bus = s.bus := (settle_bus ..).trans (leaveEgress_bus s)
  have hruns : s.holdRunsOut = settle s s.leaveEgress [] := by simp [holdRunsOut, ranOut, hhold, hpending]
  rw [hruns, ← hbus]

/-- EGRESS_CLEAR after the hold, with the line inactive, ends egress (R167). -/
theorem actEgressClear_ends (hactive : s.egress.active = true) (hlevel : s.egress.level = false)
    (hhold : s.egress.hold = none) : s.actEgressClear = .ok (settle s s.leaveEgress []) .clearEnded := by
  simp [actEgressClear, hactive, hlevel, hhold]

end Sys2Proof.Machine.State

open Sys2Proof Sys2Proof.Machine Sys2Proof.Machine.State

/-- Settles O35: a restore clears the latches named, and the event's end derives the channels without them. -/
theorem channelRestoreReleasesLatches : Obligations.ChannelRestoreReleasesLatches := by
  intro s hrun
  refine ⟨fun n h => congrArg Host.Outcome.next (request_refused hrun (actChannelRestore_badField _ h)),
    fun hactive target h => congrArg Host.Outcome.next (request_refused hrun (actChannelRestore_active hactive h)),
    fun hactive c => ?_, fun hactive => ?_⟩
  · obtain ⟨t, hact, ht⟩ := actChannelRestore_one (s := s.beginRequest) hactive c
    obtain ⟨hreply, hframe, hfollow⟩ := request_restores hrun hact ht
    exact ⟨_, congrArg Host.Outcome.next hreply, hframe, hfollow⟩
  · obtain ⟨t, hact, ht⟩ := actChannelRestore_all (s := s.beginRequest) hactive
    obtain ⟨hreply, hframe, hfollow⟩ := request_restores hrun hact ht
    exact ⟨_, congrArg Host.Outcome.next hreply, hframe, hfollow⟩

/-- Settles O42: either way the controller takes the state that egress leaves, and the event's end derives the
channels from the latches. -/
theorem egressIsLeft : Obligations.EgressIsLeft := by
  intro s i bus latch hrun hactive hi hlatch
  obtain rfl : latch = s.latchesLeft := hlatch
  have hleaves : ∃ t, exec i s = .next t ∧ s.LeavesEgress t bus := by
    rcases hi with ⟨rfl, hhold, hpending, rfl⟩ | ⟨dest, rfl, hlevel, hhold, rfl⟩
    · have hleaves := settle_leavesEgress s s.bus
      rw [holdRunsOut_leaves hhold hpending] at hleaves
      exact ⟨_, congrArg Host.Outcome.next (whenRunning_running hrun _), hleaves⟩
    · exact ⟨_, congrArg Host.Outcome.next (request_settled hrun (actEgressClear_ends hactive hlevel hhold)
        (leaveEgress_bus _)), (settle_leavesEgress s.beginRequest _).of_beginRequest⟩
  obtain ⟨t, hexec, hframe, hfollow, hchannel, horder⟩ := hleaves
  exact ⟨t, hexec, hframe, hfollow, fun c => ⟨(hchannel c).state, (hchannel c).held, (hchannel c).lines,
    (hchannel c).opened, (hchannel c).closed⟩, horder⟩
end

section
/-! The rows of Table 3-5 and the event of a beam. -/

namespace Sys2Proof.Machine

/-! ### The rows of Table 3-5 (R57) -/

/-- The moves of the tracker, with the passage that each completes (Table 3-5). -/
def trackerRows : List (Tracker × Beam × Bool × Tracker × Option Direction) :=
  [(.clear, .shore, true, .outer, none), (.clear, .vessel, true, .inner, none),
   (.outer, .shore, false, .clear, none), (.outer, .vessel, true, .spannedIn, none),
   (.inner, .shore, true, .spannedOut, none), (.inner, .vessel, false, .clear, none),
   (.spannedIn, .shore, false, .leavingIn, none), (.spannedIn, .vessel, false, .outer, none),
   (.spannedOut, .shore, false, .inner, none), (.spannedOut, .vessel, false, .leavingOut, none),
   (.leavingIn, .shore, true, .spannedIn, none), (.leavingIn, .vessel, false, .clear, some .inward),
   (.leavingOut, .shore, false, .clear, some .outward), (.leavingOut, .vessel, true, .spannedOut, none)]

variable {t k : Tracker} {beam : Beam} {broken : Bool} {passage : Option Direction}

/-- The tracker moves by the rows of the table and no other (R57). -/
theorem move_iff_row : t.move beam broken = some (k, passage) ↔ (t, beam, broken, k, passage) ∈ trackerRows := by
  constructor
  · intro h
    unfold Tracker.move at h
    split at h <;> cases h <;> decide
  · intro h
    simp only [trackerRows, List.mem_cons, Prod.mk.injEq, List.not_mem_nil, or_false] at h
    rcases h with h | h | h | h | h | h | h | h | h | h | h | h | h | h <;>
      (obtain ⟨rfl, rfl, rfl, rfl, rfl⟩ := h; rfl)

/-- A passage is completed where the tracker returns to CLEAR (R57). -/
theorem move_passage {d : Direction} (h : t.move beam broken = some (k, some d)) : k = .clear := by
  unfold Tracker.move at h
  split at h <;> cases h <;> rfl

namespace State

variable {s : State} {c d : Chan}

/-! ### The event of a beam (R57, R60) -/

theorem beamMoves_none (h : (s.chan c).tracker.move beam broken = none) : s.beamMoves c beam broken = s := by
  simp only [beamMoves, h]

theorem clearedNotice_eq (s : State) (c : Chan) (k : Tracker) :
    s.clearedNotice c k = if k = .clear then s.obstructionOver c else [] := by
  unfold clearedNotice obstructionOver
  cases (s.chan c).obstructedAt <;> simp

/-- A passage moves the channels by their tallies alone, beside what the beam moved (R59, R68). -/
theorem routePassage_channels (s : State) (c : Chan) (beam : Beam) (broken : Bool) (d : Direction) :
    ∃ x, ((s.takeBeam c beam broken .clear).routePassage c d).channels = (s.clearTracker c beam broken x).channels ∧
      ((s.takeBeam c beam broken .clear).routePassage c d).ports = s.ports := by
  by_cases hheld : (s.chan c).state = .egressHeld
  · exact ⟨_, by rw [routePassage_held hheld], by rw [routePassage_held hheld]; rfl⟩
  by_cases hnone : ∀ b, s.berthOf c = some b → (s.call b).state.isOpen = false
  · exact ⟨_, by rw [routePassage_stray hheld hnone], by rw [routePassage_stray hheld hnone]; rfl⟩
  push Not at hnone
  obtain ⟨b, hb, hopen⟩ := hnone
  rw [routePassage_open hheld hb (by simpa using hopen)]
  cases d with
  | outward =>
    rw [countPassage_outward]
    exact ⟨_, rfl, rfl⟩
  | inward =>
    cases hlive : (s.claimsOf c).live with
    | nil =>
      rw [countPassage_unpaid hlive]
      generalize (_ :: _ : List Notice) = ns
      obtain ⟨q, hq⟩ := queueAll_frame _ ns
      rw [hq]
      exact ⟨_, rfl, rfl⟩
    | cons m ms =>
      rw [countPassage_claim hlive]
      exact ⟨_, rfl, rfl⟩

/-- The event of a beam that moves the tracker. -/
theorem beamMoves_event (h : (s.chan c).tracker.move beam broken = some (k, passage)) :
    ∃ u x, s.beamMoves c beam broken = (settle s u (if k = .clear then s.obstructionOver c else [])).select ∧
      u.channels = ((s.takeBeam c beam broken k).setTallies c x).channels ∧ u.ports = s.ports ∧
      (passage = none → u = s.takeBeam c beam broken k) := by
  cases passage with
  | none =>
    refine ⟨s.takeBeam c beam broken k, (s.chan c).tallies, ?_, ?_, rfl, fun _ => rfl⟩
    · rw [← clearedNotice_eq]
      simp only [beamMoves, h]
    · cases c <;> rfl
  | some d =>
    obtain rfl := move_passage h
    obtain ⟨x, hchannels, hports⟩ := routePassage_channels s c beam broken d
    refine ⟨_, x, (beamMoves_passage h).trans ?_, hchannels, hports, nofun⟩
    rw [if_pos rfl]

/-- The gate of the channel whose tracker moved, and the gates of the others. -/
theorem moved_gates {u v : State} {x : Tallies}
    (hu : u.channels = ((s.takeBeam c beam broken k).setTallies c x).channels)
    (hv : u.GatesKept v) : (v.chan c).tracker = k ∧ (∀ d, d ≠ c → (s.chan d).SameGate (v.chan d)) ∧
      (v.chan c).beamA = (if beam = .shore then broken else (s.chan c).beamA) ∧
      (v.chan c).beamB = (if beam = .vessel then broken else (s.chan c).beamB) ∧
      (v.chan c).obstructionTimer = (if k = .clear then none
        else if (s.chan c).tracker = .clear then some 20000 else (s.chan c).obstructionTimer) ∧
      (v.chan c).obstructedAt = (if k = .clear then none else (s.chan c).obstructedAt) := by
  have hown : u.chan c = { (s.takeBeam c beam broken k).chan c with tallies := x } := by
    rw [chan, hu]
    exact (chan_setTallies ..).trans (if_pos rfl)
  have hothers : ∀ d, d ≠ c → u.chan d = s.chan d := fun d hd => by
    rw [chan, hu]
    exact ((chan_setTallies ..).trans (if_neg hd)).trans ((chan_setChan ..).trans (if_neg hd))
  rw [takeBeam, chan_setChan, if_pos rfl] at hown
  have hgate := hv.gate c
  rw [hown] at hgate
  exact ⟨hgate.tracker, fun d hd => hothers d hd ▸ hv.gate d, hgate.beamA, hgate.beamB, hgate.obstructionTimer,
    hgate.obstructedAt⟩

end State

end Sys2Proof.Machine

open Sys2Proof Sys2Proof.Machine Sys2Proof.Machine.State

/-- Settles O38: an event moves the tracker where the table has a row, and the passage, if one is completed, moves the
tallies of its channel but no gate. -/
theorem beamsMoveTheTracker : Obligations.BeamsMoveTheTracker := by
  intro s c beam broken rows hrun hrows
  obtain rfl : rows = trackerRows := hrows
  have hexec : exec (.beamEvent c beam broken) s = .next (s.beamMoves c beam broken) :=
    congrArg Host.Outcome.next (whenRunning_running hrun _)
  refine ⟨fun hnone => ?_, fun k passage hrow => ?_⟩
  · rw [hexec, beamMoves_none]
    cases hmove : (s.chan c).tracker.move beam broken with
    | none => rfl
    | some r => exact absurd (move_iff_row.mp hmove) (hnone r.1 r.2)
  · obtain ⟨u, x, hevent, hchannels, hports, hquiet⟩ := beamMoves_event (move_iff_row.mpr hrow)
    obtain ⟨htracker, hothers, hbeamA, hbeamB, htimer, hsince⟩ :=
      moved_gates hchannels (settleSelect_gates s u (if k = .clear then s.obstructionOver c else []))
    refine ⟨_, hexec.trans (congrArg Host.Outcome.next hevent), htracker, hothers, hbeamA, hbeamB, htimer, hsince,
      fun hpassage => ?_⟩
    obtain rfl := hquiet hpassage
    obtain ⟨⟨_, _, _, _, _, hframe⟩, hgates, horder⟩ := settleSelect_queued (s := s)
      (u := s.takeBeam c beam broken k) s [] (if k = .clear then s.obstructionOver c else []) rfl
    have hcross : ∀ b, crossing s (s.takeBeam c beam broken k) b = [] := fun b => crossing_same rfl
    rw [hcross, hcross] at horder
    obtain ⟨hin, hout, hunpaid, hstray, hegressIn, hegressOut⟩ := hgates.tallied (takeBeam_chan s c beam broken k).2
    refine ⟨horder, ?_, hin, hout, hunpaid, hstray, hegressIn, hegressOut⟩
    replace hframe : (settle s (s.takeBeam c beam broken k) _).select = _ := hframe
    rw [hframe]
    rfl
end

section
/-! What a frame of a reader does to its line, and the records that go out on it. -/

namespace Sys2Proof.Machine

/-- The refusals tally once a record begins to go out (R69, assumption 19). -/
def refusalsSent (n : Nat) (r : ReaderRecord) : Nat :=
  match r with
  | .verdict v => if v.code = .accept ∨ v.code = .acceptFree then n else min (n + 1) 65535
  | _ => n

theorem VerdictCode.isRefusal_iff (code : VerdictCode) :
    code.isRefusal = true ↔ ¬(code = .accept ∨ code = .acceptFree) := by
  cases code <;> decide

theorem Port.setupSent_eq (p : Port) (setup : ReaderRecord) : p.setupSent setup =
    if p.sending = none then { p with attach := some 1000, sending := some setup }
    else { p with attach := some 1000, waiting := p.waiting ++ [setup] } := by
  simp only [Port.setupSent, Option.isNone_iff_eq_none, Config.attachMs]

namespace State

variable {s : State} {c : Chan}

/-! ### A frame heard (R76, R79) -/

/-- Whatever a frame carries, it starts attachment while the line is DOWN, and is discarded (R79). -/
theorem hearReader_down (h : (s.port c).line = .down) (take : State → State) :
    s.hearReader c take = s.startAttach c := by
  rw [hearReader, h]

/-- In ATTACHING and UP a frame restarts the inactivity timer before what it carries is taken (R76). -/
theorem hearReader_heard (h : (s.port c).line ≠ .down) (take : State → State) :
    s.hearReader c take = take (s.setPort c (heard (s.port c))) := by
  cases hline : (s.port c).line with
  | down => exact absurd hline h
  | attaching | up =>
    rw [hearReader, hline]
    rfl

/-! ### SETUP and the records sent (R72, R79, R82) -/

/-- A SETUP is sent with the mode computed now, which becomes the mode shown, and the attach timer starts (R72, R79). -/
theorem attachAnew_eq (s : State) (c : Chan) : s.attachAnew c = { s with
    channels := s.channels.set c { s.chan c with modeShown := some (s.displayMode c) }
    ports := s.ports.set c ((s.port c).setupSent (.setup c.num s.cfg.pierNumber (s.displayMode c))) } := by
  have hsent : s.attachAnew c = (s.sendSetup c).setPort c ((s.attachAnew c).port c) := by
    unfold attachAnew
    dsimp only
    rw [port_setPort, if_pos rfl]
  rw [hsent, attachAnew_port, sendSetup, sendRecord]
  split
  · exact setPort_setPort ..
  · exact setPort_setPort ..

/-- A record begins to go out; a refusal counts in the tally of its channel (R69, R82, assumption 19). -/
theorem startRecord_eq (s : State) (c : Chan) (r : ReaderRecord) : s.startRecord c r = { s with
    ports := s.ports.set c { s.port c with sending := some r }
    channels := s.channels.set c { s.chan c with tallies := { (s.chan c).tallies with
      refusals := refusalsSent (s.chan c).tallies.refusals r } } } := by
  have uncounted : s.channels = s.channels.set c { s.chan c with tallies := { (s.chan c).tallies with
      refusals := (s.chan c).tallies.refusals } } := (PerChan.set_get_self ..).symm
  have plain : s.setPort c { s.port c with sending := some r } = { s with
      ports := s.ports.set c { s.port c with sending := some r }
      channels := s.channels.set c { s.chan c with tallies := { (s.chan c).tallies with
        refusals := (s.chan c).tallies.refusals } } } := by rw [← uncounted]; rfl
  cases r with
  | setup _ _ _ | mode _ => exact plain
  | verdict v =>
    by_cases hrefusal : v.code.isRefusal = true
    · rw [refusalsSent, if_neg ((VerdictCode.isRefusal_iff _).mp hrefusal)]
      exact if_pos hrefusal
    · rw [refusalsSent, if_pos (not_not.mp fun h => hrefusal ((VerdictCode.isRefusal_iff _).mpr h)), ← plain]
      exact if_neg hrefusal

theorem frameSent_last {r : ReaderRecord} (hsending : (s.port c).sending = some r)
    (hwaiting : (s.port c).waiting = []) :
    s.frameSent c = s.setPort c { s.port c with sending := none } := by
  simp only [frameSent, hsending, hwaiting]

/-- The next record waiting goes out in its turn (R82). -/
theorem frameSent_next {r n : ReaderRecord} {ns : List ReaderRecord} (hsending : (s.port c).sending = some r)
    (hwaiting : (s.port c).waiting = n :: ns) : s.frameSent c = { s with
      ports := s.ports.set c { s.port c with sending := some n, waiting := ns }
      channels := s.channels.set c { s.chan c with tallies := { (s.chan c).tallies with
        refusals := refusalsSent (s.chan c).tallies.refusals n } } } := by
  have hsent : s.frameSent c = (s.setPort c { s.port c with sending := none, waiting := ns }).startRecord c n := by
    simp only [frameSent, hsending, hwaiting]
  rw [hsent, startRecord_eq]
  have hport : (s.setPort c { s.port c with sending := none, waiting := ns }).port c =
      { s.port c with sending := none, waiting := ns } := (port_setPort ..).trans (if_pos rfl)
  rw [hport]
  cases c <;> rfl

theorem attachRunsOut_zero (hline : (s.port c).line = .attaching) (h : (s.port c).attach = some 0) :
    s.attachRunsOut c = s.attachAnew c := by
  simp [attachRunsOut, ranOut, hline, h]

end State

end Sys2Proof.Machine

open Sys2Proof Sys2Proof.Machine Sys2Proof.Machine.State

/-- Settles O59: what a frame starts or restarts by the state of its line, and the record that goes out next. -/
theorem readerFramesAreHeard : Obligations.ReaderFramesAreHeard := by
  intro s c hrun
  refine ⟨congrArg Host.Outcome.next (whenRunning_running hrun _), fun i hline hi => ?_, ?_, fun r hsending =>
    ⟨fun hwaiting => ?_, fun n ns hwaiting => ?_⟩⟩
  · have hexec : exec i s = .next (s.hearReader c id) := by
      rcases hi with rfl | rfl | rfl <;> exact congrArg Host.Outcome.next (whenRunning_running hrun _)
    rw [hexec, hearReader_heard hline]
    rfl
  · rintro i p hi setup rfl
    rcases hi with ⟨hline, hi, rfl⟩ | ⟨rfl, hline, hzero, rfl⟩
    · obtain ⟨take, hexec⟩ : ∃ take, exec i s = .next (s.hearReader c take) := by
        rcases hi with rfl | rfl | rfl | rfl | ⟨body, rfl⟩ | ⟨body, rfl⟩ | ⟨body, rfl⟩ <;>
          exact ⟨_, congrArg Host.Outcome.next (whenRunning_running hrun _)⟩
      rw [hexec, hearReader_down hline, startAttach, attachAnew_eq, port_setPort, if_pos rfl, Port.setupSent_eq]
      cases c <;> rfl
    · have hexec : exec (.attachTimerExpiry c) s = .next (s.attachRunsOut c) :=
        congrArg Host.Outcome.next (whenRunning_running hrun _)
      rw [hexec, attachRunsOut_zero hline hzero, attachAnew_eq, Port.setupSent_eq]
  · exact congrArg Host.Outcome.next ((whenRunning_running hrun _).trans (frameSent_last hsending hwaiting))
  · exact congrArg Host.Outcome.next ((whenRunning_running hrun _).trans (frameSent_next hsending hwaiting))
end

section
/-! An event's end where every channel stands in its derived state, and a presentation that the engine takes or that
waits. -/

namespace Sys2Proof

theorem PerChan.set_set {α : Type} (p : PerChan α) (c : Chan) (v w : α) : (p.set c v).set c w = p.set c w := by
  cases c <;> rfl

namespace Machine.State

variable {s t u v before : State} {c : Chan}

/-! ### An event that leaves every channel in its derived state (R54, R55, R71) -/

/-- What an event's end changes where every channel is in its derived state: notices, suspension timers, modes shown
and the records on the lines. -/
structure Reshows (s t : State) : Prop where
  frame : ∃ q k p, t = { s with notices := q, channels := k, ports := p }
  chan : ∀ d, ∃ x m, t.chan d = { s.chan d with suspensionTimer := x, modeShown := m }
  port : ∀ d, ∃ g w, t.port d = { s.port d with sending := g, waiting := w }

theorem Reshows.trans (h : s.Reshows t) (g : t.Reshows u) : s.Reshows u := by
  obtain ⟨⟨_, _, _, h1⟩, hchan, hport⟩ := h
  obtain ⟨⟨_, _, _, h2⟩, gchan, gport⟩ := g
  refine ⟨⟨_, _, _, by rw [h2, h1]⟩, fun d => ?_, fun d => ?_⟩
  · obtain ⟨_, _, e1⟩ := hchan d
    obtain ⟨_, _, e2⟩ := gchan d
    exact ⟨_, _, by rw [e2, e1]⟩
  · obtain ⟨_, _, e1⟩ := hport d
    obtain ⟨_, _, e2⟩ := gport d
    exact ⟨_, _, by rw [e2, e1]⟩

/-- What an event's end changes where every channel is settled: the suspension timers. -/
structure Retimes (s t : State) : Prop where
  frame : ∃ k, t = { s with channels := k }
  chan : ∀ d, ∃ x, t.chan d = { s.chan d with suspensionTimer := x }

theorem Retimes.trans (h : s.Retimes t) (g : t.Retimes u) : s.Retimes u := by
  obtain ⟨⟨_, h1⟩, hchan⟩ := h
  obtain ⟨⟨_, h2⟩, gchan⟩ := g
  refine ⟨⟨_, by rw [h2, h1]⟩, fun d => ?_⟩
  obtain ⟨_, e1⟩ := hchan d
  obtain ⟨_, e2⟩ := gchan d
  exact ⟨_, by rw [e2, e1]⟩

theorem setTimer_retimes (s : State) (c : Chan) (x : Timer) :
    s.Retimes (s.setChan c { s.chan c with suspensionTimer := x }) := by
  refine ⟨⟨_, rfl⟩, fun d => ?_⟩
  rw [chan_setChan]
  split
  · next hd => exact ⟨x, by rw [hd]⟩
  · exact ⟨_, rfl⟩

/-- A channel in its derived state keeps state and lines, and shows its mode. -/
theorem settleChannel_of_derived (h : s.DerivedAt c) :
    ∃ x, s.settleChannel c = (s.setChan c { s.chan c with suspensionTimer := x }).showMode c := by
  have htaken : ∃ x, s.takeState c = s.setChan c { s.chan c with suspensionTimer := x } := by
    refine ⟨if (s.chan c).state = .suspended then (s.chan c).suspensionTimer else none, ?_⟩
    unfold takeState
    dsimp only
    rw [← h.state, ← h.lines]
    simp
  obtain ⟨x, hx⟩ := htaken
  have hchan : (s.setChan c { s.chan c with suspensionTimer := x }).chan c = { s.chan c with suspensionTimer := x } :=
    (chan_setChan ..).trans (if_pos rfl)
  have hreport : reportState s (s.setChan c { s.chan c with suspensionTimer := x }) c =
      s.setChan c { s.chan c with suspensionTimer := x } := by
    simp [reportState, hchan]
  have htell : tellArbiter s (s.setChan c { s.chan c with suspensionTimer := x }) c =
      s.setChan c { s.chan c with suspensionTimer := x } := by
    simp [tellArbiter, hchan]
  refine ⟨x, ?_⟩
  unfold settleChannel
  rw [hx]
  dsimp only
  rw [hreport, htell]

/-- A MODE record goes out or waits, and moves no tally (R71). -/
theorem sendMode_reshows (s : State) (c : Chan) (m : Mode) : s.Reshows (s.sendRecord c (.mode m)) := by
  have sent : ∀ p : Port, p = { s.port c with sending := p.sending, waiting := p.waiting } →
      s.Reshows (s.setPort c p) := fun p hp => by
    refine ⟨⟨_, _, _, rfl⟩, fun d => ⟨_, _, rfl⟩, fun d => ?_⟩
    rw [port_setPort]
    split
    · next hd => exact ⟨_, _, by rw [hd, ← hp]⟩
    · exact ⟨_, _, rfl⟩
  unfold sendRecord
  split
  · exact sent _ rfl
  · exact sent _ rfl

theorem showMode_reshows (s : State) (c : Chan) : s.Reshows (s.showMode c) := by
  have shown : s.Reshows (s.setChan c { s.chan c with modeShown := some (s.displayMode c) }) := by
    refine ⟨⟨_, _, _, rfl⟩, fun d => ?_, fun d => ⟨_, _, rfl⟩⟩
    rw [chan_setChan]
    split
    · next hd => exact ⟨_, _, by rw [hd]⟩
    · exact ⟨_, _, rfl⟩
  unfold showMode
  dsimp only
  split
  · exact shown.trans (sendMode_reshows _ c _)
  · exact ⟨⟨_, _, _, rfl⟩, fun d => ⟨_, _, rfl⟩, fun d => ⟨_, _, rfl⟩⟩

theorem Retimes.reshows (h : s.Retimes t) : s.Reshows t := by
  obtain ⟨⟨k, rfl⟩, hchan⟩ := h
  refine ⟨⟨_, _, _, rfl⟩, fun d => ?_, fun d => ⟨_, _, rfl⟩⟩
  obtain ⟨x, hx⟩ := hchan d
  exact ⟨x, _, hx⟩

theorem settleChannel_reshows (h : s.DerivedAt c) : s.Reshows (s.settleChannel c) := by
  obtain ⟨x, hx⟩ := settleChannel_of_derived h
  rw [hx]
  exact (setTimer_retimes s c x).reshows.trans (showMode_reshows _ c)

theorem SettledAt.derived (h : s.SettledAt c) : s.DerivedAt c := ⟨h.state, h.lines⟩

/-- A settled channel shows its mode already. -/
theorem settleChannel_retimes (h : s.SettledAt c) : s.Retimes (s.settleChannel c) := by
  obtain ⟨x, hx⟩ := settleChannel_of_derived h.derived
  have hbasis : (s.setChan c { s.chan c with suspensionTimer := x }).basis = s.basis :=
    setChan_basis s c (by rw [standing_setChan]; rfl)
  have hsettled : (s.setChan c { s.chan c with suspensionTimer := x }).SettledAt c := h.of_basis hbasis
  have hshown : (s.setChan c { s.chan c with suspensionTimer := x }).showMode c =
      s.setChan c { s.chan c with suspensionTimer := x } := by
    refine if_neg fun hmode => ?_
    simp only [Bool.and_eq_true, decide_eq_true_eq] at hmode
    exact hmode.2 (hsettled.shown hmode.1)
  rw [hx, hshown]
  exact setTimer_retimes s c x

theorem settleChannel_settledAt (c : Chan) {d : Chan} (hd : s.SettledAt d) : (s.settleChannel c).SettledAt d := by
  by_cases e : d = c
  · rw [e]
    exact settleChannel_settled s c
  · exact settleChannel_keeps s c d e hd

/-- An event that leaves every channel in its derived state. -/
theorem settle_reshows (h : ∀ d, s.DerivedAt d) : s.Reshows (settle before s []) := by
  rw [settle_eq]
  obtain ⟨q, hq⟩ := queueAll_frame s (crossing before s .b0 ++ crossing before s .b1 ++ [])
  have h0 : ∀ d, ({ s with notices := q } : State).DerivedAt d := fun d => ⟨(h d).state, (h d).lines⟩
  have h1 := settleChannel_derived (c := .c0) (d := .c1) (by decide) (h0 .c1)
  have h2 := settleChannel_derived (c := .c1) (d := .c2) (by decide)
    (settleChannel_derived (c := .c0) (by decide) (h0 .c2))
  have h3 := settleChannel_derived (c := .c2) (d := .c3) (by decide)
    (settleChannel_derived (c := .c1) (by decide) (settleChannel_derived (c := .c0) (by decide) (h0 .c3)))
  have queued : s.Reshows { s with notices := q } := ⟨⟨_, _, _, rfl⟩, fun d => ⟨_, _, rfl⟩, fun d => ⟨_, _, rfl⟩⟩
  rw [hq]
  exact queued.trans <| (settleChannel_reshows (h0 .c0)).trans <| (settleChannel_reshows h1).trans <|
    (settleChannel_reshows h2).trans (settleChannel_reshows h3)

/-- An event that moves no headroom and leaves every channel settled. -/
theorem settle_retimes (hcross : ∀ b, crossing before s b = []) (h : ∀ d, s.SettledAt d) :
    s.Retimes (settle before s []) := by
  have h0 := fun d => settleChannel_settledAt .c0 (h d)
  have h1 := fun d => settleChannel_settledAt .c1 (h0 d)
  have h2 := fun d => settleChannel_settledAt .c2 (h1 d)
  rw [settle_eq, hcross, hcross]
  exact (settleChannel_retimes (h .c0)).trans <| (settleChannel_retimes (h0 .c1)).trans <|
    (settleChannel_retimes (h1 .c2)).trans (settleChannel_retimes (h2 .c3))

end Machine.State

end Sys2Proof
end

section
/-! A presentation that the engine takes at its arrival, or that waits. -/

namespace Sys2Proof.Machine.State

variable {s u v : State} {c : Chan} {card : Card}

/-! ### The selection that ends a presentation's event (R91 to R94, R102) -/

/-- A presentation in its channel's place is handed to the engine, or stays there; beside it, suspension timers and the
tally of presentations taken move alone. -/
structure Hands (u t : State) (c : Chan) (card : Card) (taken : Bool) : Prop where
  frame : t = { u with
    arbiter := { u.arbiter with places := if taken then u.arbiter.places.set c none else u.arbiter.places }
    engine := { u.engine with
      work := if taken then some ⟨.channel c, card, u.snapshot, false, .none⟩ else u.engine.work }
    channels := t.channels }
  chan : ∀ d, (t.chan d).state = (u.chan d).state ∧ (t.chan d).modeShown = (u.chan d).modeShown ∧
    (t.chan d).tallies = if d = c ∧ taken = true then { (u.chan c).tallies with
      taken := min ((u.chan c).tallies.taken + 1) 65535 } else (u.chan d).tallies

/-- An event that leaves the presentation where it is. -/
theorem Retimes.waits (h : u.Retimes v) : u.Hands v c card false := by
  obtain ⟨⟨k, rfl⟩, hchan⟩ := h
  refine ⟨rfl, fun d => ?_⟩
  obtain ⟨x, hx⟩ := hchan d
  rw [hx]
  exact ⟨rfl, rfl, (if_neg fun h => nomatch h.2).symm⟩

/-- The engine takes the presentation in a channel's place, with the tables and the clock as they stand (R94, R102). -/
theorem handOver_channel {since : Nat} (hplace : s.arbiter.places.get c = some ⟨card, since⟩) :
    s.handOver (.channel c) = { s with
      arbiter := { s.arbiter with places := s.arbiter.places.set c none }
      engine := { s.engine with work := some ⟨.channel c, card, s.snapshot, false, .none⟩ }
      channels := s.channels.set c { s.chan c with tallies := { (s.chan c).tallies with
        taken := min ((s.chan c).tallies.taken + 1) 65535 } } } := by
  unfold handOver
  dsimp only
  rw [hplace]
  rfl

theorem handOver_chan {since : Nat} (hplace : s.arbiter.places.get c = some ⟨card, since⟩) (d : Chan) :
    (s.handOver (.channel c)).chan d = if d = c then { s.chan c with tallies := { (s.chan c).tallies with
      taken := min ((s.chan c).tallies.taken + 1) 65535 } } else s.chan d := by
  rw [handOver_channel hplace]
  exact PerChan.get_set ..

/-- The event hands the presentation to the engine. -/
theorem Retimes.handsOver {since : Nat} (h : u.Retimes v) (hplace : u.arbiter.places.get c = some ⟨card, since⟩) :
    u.Hands (v.handOver (.channel c)) c card true := by
  obtain ⟨⟨k, hv⟩, hchan⟩ := h
  have hplace' : v.arbiter.places.get c = some ⟨card, since⟩ := by rwa [hv]
  refine ⟨?_, fun d => ?_⟩
  · rw [handOver_channel hplace', hv]
    rfl
  · rw [handOver_chan hplace']
    obtain ⟨x, hx⟩ := hchan d
    by_cases hd : d = c
    · rw [if_pos hd, if_pos ⟨hd, rfl⟩, ← hd, hx]
      exact ⟨rfl, rfl, rfl⟩
    · rw [if_neg hd, if_neg fun h => hd h.1, hx]
      exact ⟨rfl, rfl, rfl⟩

/-- With every other place empty and no desk check pending, a channel's presentation is the only candidate. -/
theorem candidates_only (hothers : ∀ d, d ≠ c → u.channelCandidate d = []) (hdesk : u.deskCandidate = []) :
    u.candidates = u.channelCandidate c := by
  unfold candidates
  rw [hdesk, List.append_nil]
  cases c <;> simp [Chan.all, hothers]

theorem candidates_nil (h : s.candidates = []) : (∀ d, s.channelCandidate d = []) ∧ s.deskCandidate = [] := by
  obtain ⟨hchannels, hdesk⟩ := List.append_eq_nil_iff.mp h
  refine ⟨fun d => List.flatMap_eq_nil_iff.mp hchannels d ?_, hdesk⟩
  cases d <;> decide

/-- What the event of a presentation ends with, as the only one eligible (R91, R92). -/
theorem Retimes.select_only {since : Nat} (h : u.Retimes v) (hfree : u.engine.work = none)
    (hplace : u.arbiter.places.get c = some ⟨card, since⟩) (hothers : ∀ d, d ≠ c → u.channelCandidate d = [])
    (hdesk : u.deskCandidate = []) : u.Hands v.select c card (decide ((u.claimsOf c).count < 3)) := by
  have hcandidates : v.candidates = u.channelCandidate c := by
    rw [← candidates_only hothers hdesk]
    obtain ⟨⟨k, rfl⟩, -⟩ := h
    rfl
  have hwork : v.engine.work = none := by
    obtain ⟨⟨k, rfl⟩, -⟩ := h
    exact hfree
  have hselect : v.select = if (u.claimsOf c).count < 3 then v.handOver (.channel c) else v := by
    unfold select
    rw [hwork, hcandidates, channelCandidate, hplace]
    by_cases hcount : (u.claimsOf c).count < 3
    · simp only [Config.claimsPerChannel, hcount, if_true]
      rfl
    · simp only [Config.claimsPerChannel, hcount, if_false]
      rfl
  rw [hselect]
  split
  · next hcount =>
    rw [decide_eq_true hcount]
    exact h.handsOver hplace
  · next hcount =>
    rw [decide_eq_false hcount]
    exact h.waits

theorem Retimes.select_busy (h : u.Retimes v) (hbusy : u.engine.work ≠ none) : u.Hands v.select c card false := by
  obtain ⟨w, hw⟩ := Option.ne_none_iff_exists'.mp hbusy
  have hwork : v.engine.work = some w := by
    obtain ⟨⟨k, rfl⟩, -⟩ := h
    exact hw
  rw [select_of_work hwork]
  exact h.waits

/-! ### A presentation withdrawn, written out (R84, R95, R103, R157) -/

/-- The state without the outstanding presentation of a channel. -/
def withdrawn (s : State) (c : Chan) : State := { s with
  ports := s.ports.set c { s.port c with outstanding := none }
  arbiter := { s.arbiter with places := s.arbiter.places.set c none }
  engine := { s.engine with
    work := s.engine.work.map fun w => if w.requester = .channel c then { w with withdrawn := true } else w
    slot0 := s.engine.slot0.filter fun r => r.channel ≠ c
    slot1 := s.engine.slot1.filter fun r => r.channel ≠ c } }

theorem markWithdrawn_eq (s : State) (c : Chan) : s.markWithdrawn c = { s with engine := { s.engine with
    work := s.engine.work.map fun w => if w.requester = .channel c then { w with withdrawn := true } else w } } := by
  cases hw : s.engine.work with
  | none =>
    have hsame : s.markWithdrawn c = s := by rw [markWithdrawn, hw]
    rw [hsame, Option.map_none, ← hw]
  | some w =>
    unfold markWithdrawn
    rw [hw, Option.map_some]
    dsimp only
    split
    · rfl
    · rw [← hw]

/-- A slot is emptied where it holds a referral of the channel. -/
theorem dropReferral_eq (s : State) (c : Chan) (i : Slot) :
    s.dropReferral c i = s.setSlot i ((s.slot i).filter fun r => r.channel ≠ c) := by
  have kept : s = s.setSlot i (s.slot i) := by cases i <;> rfl
  unfold dropReferral
  split
  · next hnone =>
    rw [hnone] at kept ⊢
    exact kept
  · next r hr =>
    rw [hr, Option.filter_some]
    by_cases hc : r.channel = c
    · rw [if_pos hc, if_neg (by simpa using hc)]
    · rw [if_neg hc, if_pos (by simpa using hc), ← hr]
      exact kept

theorem withdrawPresentation_held (h : (s.port c).outstanding ≠ none) : s.withdrawPresentation c = s.withdrawn c := by
  obtain ⟨k, hk⟩ := Option.ne_none_iff_exists'.mp h
  unfold withdrawPresentation
  rw [hk]
  dsimp only
  rw [markWithdrawn_eq, dropReferral_eq, dropReferral_eq]
  rfl

theorem withdrawPresentation_none (h : (s.port c).outstanding = none) : s.withdrawPresentation c = s := by
  rw [withdrawPresentation, h]

theorem endWriteUnknown_none (h : (s.port c).awaited = none) : s.endWriteUnknown c = s := by
  rw [endWriteUnknown, h]

/-! ### The records of a reader that is UP (R76, R83, R84) -/

theorem hears (hrun : s.power = .running) (hup : (s.port c).line = .up) (take : State → State) :
    (s.whenRunning fun s => s.hearReader c fun s => s.whenUp c take) = take (s.setPort c (heard (s.port c))) := by
  have hup' : ((s.setPort c (heard (s.port c))).port c).line = .up := by
    rw [port_setPort, if_pos rfl]
    exact hup
  rw [whenRunning_running hrun, hearReader_heard (by rw [hup]; decide), whenUp, hup']

theorem exec_present {body : List Octet} (hrun : s.power = .running) (hup : (s.port c).line = .up)
    (hbody : Card.parse body = some card) :
    exec (.present c body) s = .next ((s.setPort c (heard (s.port c))).takePresent c card) := by
  refine congrArg Host.Outcome.next ((hears hrun hup _).trans ?_)
  rw [hbody]

theorem exec_withdraw {body : List Octet} {id : CardId} (hrun : s.power = .running) (hup : (s.port c).line = .up)
    (hbody : withdrawCard body = some id) :
    exec (.withdraw c body) s = .next ((s.setPort c (heard (s.port c))).takeWithdraw c id) := by
  refine congrArg Host.Outcome.next ((hears hrun hup _).trans ?_)
  rw [hbody]

/-- The state with a card outstanding and in its channel's place. -/
def presented (s : State) (c : Chan) (card : Card) : State := { s with
  ports := s.ports.set c { s.port c with outstanding := some card }
  arbiter := { s.arbiter with places := s.arbiter.places.set c (some ⟨card, s.uptime⟩) } }

theorem presented_basis (s : State) (c : Chan) (card : Card) : (s.presented c card).basis = s.basis :=
  setPort_basis s c Iff.rfl

theorem heard_basis (s : State) (c : Chan) : (s.setPort c (heard (s.port c))).basis = s.basis :=
  setPort_basis s c Iff.rfl

theorem arrive_served (h : s.arrivalRefusal c = none) :
    (s.setPort c { s.port c with outstanding := some card }).arrive c card = s.presented c card := by
  have hserved : (s.setPort c { s.port c with outstanding := some card }).arrivalRefusal c = none := h
  rw [arrive, hserved]
  rfl

/-- The event of a presentation that is not refused at its arrival. -/
theorem takePresent_served {e : State} (he : (s.withdrawPresentation c).endWriteUnknown c = e)
    (h : e.arrivalRefusal c = none) : s.takePresent c card = (settle s (e.presented c card) []).select := by
  unfold takePresent
  rw [he]
  dsimp only
  rw [arrive_served h]

theorem headroom_of_basis (h : u.basis = s.basis) (b : Berth) : u.headroom b = s.headroom b := by
  have hcalls : u.calls = s.calls := congrArg Basis.calls h
  have hheld : u.held = s.held := congrArg Basis.held h
  rw [headroom, headroom, aboard, aboard, call_congr hcalls, hheld]

/-- An event that ends as it found the channels. -/
theorem settle_retimes_of_basis {before : State} (hs : ∀ d, s.SettledAt d) (hu : u.basis = s.basis)
    (hbefore : before.basis = s.basis) : u.Retimes (settle before u []) :=
  settle_retimes (fun b => crossing_same ((headroom_of_basis hu b).trans (headroom_of_basis hbefore b).symm))
    fun d => (hs d).of_basis hu

end Sys2Proof.Machine.State
end

section
/-! PRESENT and WITHDRAW on a line that is UP. -/

namespace Sys2Proof.Machine.State

open Safety

variable {s u : State} {c : Chan} {card : Card} {code : VerdictCode} {body : List Octet}

/-! ### A presentation with nothing held on its line (R83, R88) -/

theorem takePresent_idle (hnone : (s.port c).outstanding = none) (hawaited : (s.port c).awaited = none) :
    s.takePresent c card =
      (settle s ((s.setPort c { s.port c with outstanding := some card }).arrive c card) []).select := by
  rw [takePresent, withdrawPresentation_none hnone, endWriteUnknown_none hawaited]

theorem arrive_gates (s : State) (c : Chan) (card : Card) : s.GatesKept (s.arrive c card) := by
  unfold arrive
  split
  · exact deliver_gates s c _
  · exact .same rfl rfl

/-- The first arrival test that a presentation fails (R88). -/
theorem arrivalRefusal_of
    (h : (s.chan c).state = .egressHeld ∧ code = .egress ∨
      (s.chan c).state = .suspended ∧ code = .gangwayClosed ∨
      (s.chan c).state = .outOfService ∧ code = .notServed ∨
      ((s.chan c).state = .closed ∨ (s.chan c).state = .exitFree) ∧ code = .notBoarding ∨
      ((s.chan c).state = .released ∨ (s.chan c).state = .admitting) ∧
        ((s.chan c).service = .outOfService ∨ s.cfg.level.get c = 0) ∧ code = .notServed ∨
      ((s.chan c).state = .released ∨ (s.chan c).state = .admitting) ∧
        (s.chan c).service = .inService ∧ s.cfg.level.get c ≠ 0 ∧
        (∃ b, s.berthOf c = some b ∧ (s.call b).state = .lastCall) ∧
        s.cfg.level.get c ≤ s.cfg.lastCallLevel ∧ code = VerdictCode.notBoarding) :
    s.arrivalRefusal c = some code := by
  rcases h with ⟨hstate, rfl⟩ | ⟨hstate, rfl⟩ | ⟨hstate, rfl⟩ | ⟨hstate | hstate, rfl⟩ |
    ⟨hstate | hstate, hout | hlevel, rfl⟩ | ⟨hstate, hservice, hlevel, ⟨b, hberth, hcall⟩, hlow, rfl⟩
  · rw [arrivalRefusal, hstate]
  · rw [arrivalRefusal, hstate]
  · rw [arrivalRefusal, hstate]
  · rw [arrivalRefusal, hstate]
  · rw [arrivalRefusal, hstate]
  · simp only [arrivalRefusal, hstate, hout, if_true]
  · simp only [arrivalRefusal, hstate, hlevel, if_true, ite_self]
  · simp only [arrivalRefusal, hstate, hout, if_true]
  · simp only [arrivalRefusal, hstate, hlevel, if_true, ite_self]
  · have hlast : s.belowLastCall c = true := by
      simp only [belowLastCall, callStateOf, hberth, Option.map_some, hcall, hlow, decide_true, Bool.and_true]
    rcases hstate with hstate | hstate <;>
      simp [arrivalRefusal, hstate, hservice, hlevel, hlast]

/-- What a presentation leaves of the state, with nothing held on its line and the engine BUSY. -/
structure Arrives (s t : State) (c : Chan) (card : Card) : Prop where
  frame : t = { s with notices := t.notices, arbiter := t.arbiter, channels := t.channels, ports := t.ports }
  gates : s.GatesKept t
  refused : ∀ code, s.arrivalRefusal c = some code → (t.port c).outstanding = none ∧
    (s.arbiter.places.get c = none → t.arbiter.places.get c = none) ∧
    ((s.port c).sending = none → (t.port c).sending = some (.verdict
      ⟨code, 0, card.value.map ValuePart.balance, none⟩))

theorem settle_arrives (s : State) (c : Chan) (card : Card) :
    s.Arrives (settle s ((s.setPort c { s.port c with outstanding := some card }).arrive c card) []) c card := by
  have hport : (s.setPort c { s.port c with outstanding := some card }).port c =
      { s.port c with outstanding := some card } := (port_setPort ..).trans (if_pos rfl)
  have hgates : s.GatesKept ((s.setPort c { s.port c with outstanding := some card }).arrive c card) :=
    (setPort_gates s c { s.port c with outstanding := some card } ⟨rfl, rfl, rfl, rfl⟩).trans (arrive_gates _ c card)
  obtain ⟨_, _, _, harrive⟩ := arrive_frame (s.setPort c { s.port c with outstanding := some card }) c card
  have hdeliver : ∀ code, s.arrivalRefusal c = some code →
      (s.setPort c { s.port c with outstanding := some card }).arrive c card =
        (s.setPort c { s.port c with outstanding := some card }).deliver c (plainVerdict card code) := by
    intro code hrefusal
    have hrefusal' : (s.setPort c { s.port c with outstanding := some card }).arrivalRefusal c = some code := hrefusal
    rw [arrive, hrefusal']
  generalize (s.setPort c { s.port c with outstanding := some card }).arrive c card = u at *
  refine ⟨?_, hgates.trans (settle_follow s u []).gates, fun code hrefusal => ?_⟩
  · obtain ⟨_, _, _, _, hsettle⟩ := settle_frame s u []
    rw [hsettle, harrive]
    rfl
  · have hanswers := deliver_answers (s.setPort c { s.port c with outstanding := some card }) c card code
    rw [← hdeliver code hrefusal] at hanswers
    have hsettled := hanswers.settles (settle_portsFollow s u [])
    refine ⟨hsettled.taken, fun hplace => settle_places s u [] c ?_, fun hidle => hsettled.verdict ?_ ?_⟩
    · obtain ⟨_, _, h⟩ :=
        deliver_frame (s.setPort c { s.port c with outstanding := some card }) c (plainVerdict card code)
      rw [hdeliver code hrefusal, h]
      exact hplace
    · rw [hport]
      exact nofun
    · rw [hport]
      exact hidle

/-! ### A presentation that is not refused (R83, R84, R88) -/

/-- The reader heard and its earlier presentation withdrawn (R76, R84). -/
def readied (s : State) (c : Chan) : State := (s.setPort c (heard (s.port c))).withdrawPresentation c

theorem readied_none (h : (s.port c).outstanding = none) : s.readied c = s.setPort c (heard (s.port c)) := by
  refine withdrawPresentation_none ?_
  rw [port_setPort, if_pos rfl]
  exact h

theorem readied_held (h : (s.port c).outstanding ≠ none) :
    s.readied c = (s.setPort c (heard (s.port c))).withdrawn c := by
  refine withdrawPresentation_held ?_
  rw [port_setPort, if_pos rfl]
  exact h

theorem readied_basis (s : State) (c : Chan) : (s.readied c).basis = s.basis :=
  (withdrawPresentation_basis _ c).trans (heard_basis s c)

theorem readied_frame (s : State) (c : Chan) : ∃ p a w x y, s.readied c = { s with
    ports := p, arbiter := a, engine := { s.engine with work := w, slot0 := x, slot1 := y } } := by
  obtain ⟨p, a, w, x, y, h⟩ := withdrawPresentation_frame (s.setPort c (heard (s.port c))) c
  exact ⟨p, a, w, x, y, h⟩

theorem exec_present_served (hrun : s.power = .running) (hup : (s.port c).line = .up)
    (hbody : Card.parse body = some card) (hawaited : (s.port c).awaited = none)
    (hserved : s.arrivalRefusal c = none) : exec (.present c body) s =
      .next (settle (s.setPort c (heard (s.port c))) ((s.readied c).presented c card) []).select := by
  have hawaited' : ((s.readied c).port c).awaited = none := by
    rw [readied, withdrawPresentation_port, if_pos rfl, port_setPort, if_pos rfl]
    exact hawaited
  have hserved' : (s.readied c).arrivalRefusal c = none := by
    obtain ⟨_, _, _, _, _, h⟩ := readied_frame s c
    rw [h]
    exact hserved
  rw [exec_present hrun hup hbody, takePresent_served (e := s.readied c) (endWriteUnknown_none hawaited') hserved']

/-- The event that ends a presentation moves suspension timers alone. -/
theorem presented_retimes (hrun : s.power = .running) (hderived : ChannelsDerived s) :
    ((s.readied c).presented c card).Retimes
      (settle (s.setPort c (heard (s.port c))) ((s.readied c).presented c card) []) :=
  settle_retimes_of_basis ((channelsDerived_iff s).mp hderived hrun)
    ((presented_basis ..).trans (readied_basis s c)) (heard_basis s c)

/-- A presentation leaves the places of the other channels and the desk check. -/
theorem presented_others (s : State) (c : Chan) (card : Card) :
    ((s.readied c).presented c card).arbiter.desk = s.arbiter.desk ∧ ∀ d, d ≠ c →
      ((s.readied c).presented c card).arbiter.places.get d = s.arbiter.places.get d := by
  by_cases hheld : (s.port c).outstanding = none
  · rw [readied_none hheld]
    exact ⟨rfl, fun d hd => (PerChan.get_set ..).trans (if_neg hd)⟩
  · rw [readied_held hheld]
    exact ⟨rfl, fun d hd => ((PerChan.get_set ..).trans (if_neg hd)).trans ((PerChan.get_set ..).trans (if_neg hd))⟩

theorem presented_place (s : State) (c : Chan) (card : Card) :
    (s.presented c card).arbiter.places.get c = some ⟨card, s.uptime⟩ := (PerChan.get_set ..).trans (if_pos rfl)

/-- Beside a presentation nothing is eligible where nothing was (R91). -/
theorem presented_alone (h : s.candidates = []) :
    (∀ d, d ≠ c → ((s.readied c).presented c card).channelCandidate d = []) ∧
      ((s.readied c).presented c card).deskCandidate = [] := by
  obtain ⟨hchannels, hdesk⟩ := candidates_nil h
  obtain ⟨hdesk', hplaces⟩ := presented_others s c card
  obtain ⟨_, _, _, _, _, hframe⟩ := readied_frame s c
  have hsame : ∃ a p e, (s.readied c).presented c card = { s with arbiter := a, ports := p, engine := e } := by
    rw [hframe]
    exact ⟨_, _, _, rfl⟩
  obtain ⟨a, p, e, hsame⟩ := hsame
  rw [hsame] at hdesk' hplaces ⊢
  refine ⟨fun d hd => ?_, ?_⟩
  · have hcandidate := hchannels d
    unfold channelCandidate at hcandidate ⊢
    rw [hplaces d hd]
    exact hcandidate
  · unfold deskCandidate at hdesk ⊢
    rw [hdesk']
    exact hdesk

/-- The engine BUSY: the presentation waits in its place. -/
theorem present_waits (hrun : s.power = .running) (hup : (s.port c).line = .up) (hbody : Card.parse body = some card)
    (hawaited : (s.port c).awaited = none) (hderived : ChannelsDerived s) (hserved : s.arrivalRefusal c = none)
    (hbusy : (s.readied c).engine.work ≠ none) :
    ∃ t, exec (.present c body) s = .next t ∧ ((s.readied c).presented c card).Hands t c card false :=
  ⟨_, exec_present_served hrun hup hbody hawaited hserved, (presented_retimes hrun hderived).select_busy hbusy⟩

/-- The engine FREE and nothing else eligible: the engine takes the presentation, unless its channel holds 3 claims. -/
theorem present_taken (hrun : s.power = .running) (hup : (s.port c).line = .up) (hbody : Card.parse body = some card)
    (hawaited : (s.port c).awaited = none) (hderived : ChannelsDerived s) (hserved : s.arrivalRefusal c = none)
    (hfree : (s.readied c).engine.work = none) (hidle : s.candidates = []) :
    ∃ t, exec (.present c body) s = .next t ∧
      ((s.readied c).presented c card).Hands t c card (decide ((s.claimsOf c).count < 3)) := by
  obtain ⟨hothers, hdesk⟩ := presented_alone (c := c) (card := card) hidle
  have hclaims : ((s.readied c).presented c card).claimsOf c = s.claimsOf c := by
    obtain ⟨_, _, _, _, _, hframe⟩ := readied_frame s c
    rw [hframe]
    rfl
  have hhands := (presented_retimes (card := card) hrun hderived).select_only hfree (presented_place _ c card) hothers
    hdesk
  rw [hclaims] at hhands
  exact ⟨_, exec_present_served hrun hup hbody hawaited hserved, hhands⟩

/-- The card outstanding and in its place, with nothing held before. -/
theorem presented_first (h : (s.port c).outstanding = none) : (s.readied c).presented c card = { s with
    arbiter := { s.arbiter with places := s.arbiter.places.set c (some ⟨card, s.uptime⟩) }
    ports := s.ports.set c { s.port c with
      receiver := .hunting false, inactivity := some 3000, outstanding := some card } } := by
  rw [readied_none h]
  cases c <;> rfl

/-- The card outstanding and in its place, over an earlier one. -/
theorem presented_over (h : (s.port c).outstanding ≠ none) : (s.readied c).presented c card = { s with
    arbiter := { s.arbiter with places := s.arbiter.places.set c (some ⟨card, s.uptime⟩) }
    engine := { s.engine with
      work := s.engine.work.map fun w => if w.requester = .channel c then { w with withdrawn := true } else w
      slot0 := s.engine.slot0.filter fun r => r.channel ≠ c
      slot1 := s.engine.slot1.filter fun r => r.channel ≠ c }
    ports := s.ports.set c { s.port c with
      receiver := .hunting false, inactivity := some 3000, outstanding := some card } } := by
  rw [readied_held h]
  cases c <;> rfl

end Sys2Proof.Machine.State
end

section
/-! A PRESENT over an awaited write, and WITHDRAW; PRESENT and WITHDRAW whole. -/

namespace Sys2Proof.Machine.State

open Safety

variable {s t u : State} {c : Chan} {card : Card} {body : List Octet}

/-! ### A presentation over an awaited write (R83, R86) -/

/-- Which channels are in their derived states rests on the claims by the live queues alone. -/
theorem DerivedAt.of_live (h : s.DerivedAt c) (hlive : (t.claimsOf c).live = (s.claimsOf c).live)
    (hrest : { t with claims := s.claims }.basis = s.basis) : t.DerivedAt c := by
  obtain ⟨hderive, hlines, -⟩ := basis_derives hrest c
  have hstanding : { t with claims := s.claims }.standing c = s.standing c := congrFun (congrArg Basis.standing hrest) c
  have hstate : (t.chan c).state = (s.chan c).state := congrArg Standing.state hstanding
  have hin : (t.chan c).unlockIn = (s.chan c).unlockIn := congrArg Standing.unlockIn hstanding
  have hout : (t.chan c).unlockOut = (s.chan c).unlockOut := congrArg Standing.unlockOut hstanding
  have hlive' : (t.claimsOf c).live = (({ t with claims := s.claims } : State).claimsOf c).live := hlive
  have hordinary : t.ordinaryState c = ({ t with claims := s.claims } : State).ordinaryState c := by
    unfold ordinaryState
    rw [hlive']
    rfl
  have hderive' : t.deriveState c = s.deriveState c := by
    rw [← hderive, deriveState, hordinary]
    rfl
  have hlines' : t.lines c = s.lines c := by
    rw [← hlines]
    funext st
    unfold State.lines
    rw [hordinary]
    rfl
  exact ⟨by rw [hstate, hderive', h.state], by rw [hin, hout, hstate, hlines', h.lines]⟩

/-- The state after a write awaited by a channel ends with its outcome unknown and a card is presented: the claim of
the write is gone, with its seats returned and an UNCERTAIN entry. -/
def presentedAfterWrite (s : State) (c : Chan) (card : Card) (k : Claim) (rest : List Claim) : State := { s with
  claims := s.claims.set c { s.claimsOf c with provisional := rest }
  tables := { s.tables with allot := allotReturned s.tables.allot k }
  engine := { s.engine with journey := s.journeyUnknown c s.engine.journey k }
  arbiter := { s.arbiter with places := s.arbiter.places.set c (some ⟨card, s.uptime⟩) }
  ports := s.ports.set c { s.port c with
    receiver := .hunting false, inactivity := some 3000, outstanding := some card, awaited := none } }

theorem presentedAfterWrite_port (s : State) (c : Chan) (card : Card) (k : Claim) (rest : List Claim) :
    ((s.presentedAfterWrite c card k rest).port c).outstanding = some card ∧
      ((s.presentedAfterWrite c card k rest).port c).awaited = none := by
  have hport : (s.presentedAfterWrite c card k rest).port c = { s.port c with
      receiver := .hunting false, inactivity := some 3000, outstanding := some card, awaited := none } :=
    (PerChan.get_set ..).trans (if_pos rfl)
  rw [hport]
  exact ⟨rfl, rfl⟩

/-- The end of the write moves no channel's state: only a live claim does (R54). -/
theorem presentedAfterWrite_derived {k : Claim} {rest : List Claim} (h : ∀ d, s.SettledAt d) (d : Chan) :
    (s.presentedAfterWrite c card k rest).DerivedAt d := by
  refine (h d).derived.of_live ?_ (setPort_basis s c Iff.rfl)
  show ((s.claims.set c _).get d).live = _
  rw [PerChan.get_set]
  split
  · next hd => rw [hd]
  · rfl

theorem endWriteUnknown_found {w : AwaitedWrite} {k : Claim} {rest : List Claim} (hw : (s.port c).awaited = some w)
    (htake : takeTag w.tag (s.claimsOf c).provisional = some (k, rest)) : s.endWriteUnknown c = { s with
      ports := s.ports.set c { s.port c with awaited := none }
      claims := s.claims.set c { s.claimsOf c with provisional := rest }
      tables := { s.tables with allot := allotReturned s.tables.allot k }
      engine := { s.engine with journey := s.journeyUnknown c s.engine.journey k } } := by
  unfold endWriteUnknown
  rw [hw]
  exact writeUnknown_found (s := s.setPort c { s.port c with awaited := none }) htake

/-- The write ended, and the card presented in its stead. -/
theorem endWriteUnknown_presented {w : AwaitedWrite} {k : Claim} {rest : List Claim} (hw : (s.port c).awaited = some w)
    (htake : takeTag w.tag (s.claimsOf c).provisional = some (k, rest)) :
    ((s.setPort c (heard (s.port c))).endWriteUnknown c).presented c card = s.presentedAfterWrite c card k rest := by
  have hport : (s.setPort c (heard (s.port c))).port c = heard (s.port c) := (port_setPort ..).trans (if_pos rfl)
  have hjourney : (s.setPort c (heard (s.port c))).journeyUnknown c (s.setPort c (heard (s.port c))).engine.journey k =
      s.journeyUnknown c s.engine.journey k := rfl
  have hended := endWriteUnknown_found (s := s.setPort c (heard (s.port c))) (c := c) (by rw [hport]; exact hw) htake
  have hports : (s.setPort c (heard (s.port c))).ports = s.ports.set c (heard (s.port c)) := rfl
  rw [hjourney, hport, hports, PerChan.set_set] at hended
  have hown := congrArg (fun e : State => e.port c) hended
  replace hown := hown.trans ((PerChan.get_set ..).trans (if_pos rfl))
  rw [presented, hown, hended]
  dsimp only
  rw [PerChan.set_set]
  rfl

theorem exec_present_afterWrite {w : AwaitedWrite} {k : Claim} {rest : List Claim} (hrun : s.power = .running)
    (hup : (s.port c).line = .up) (hbody : Card.parse body = some card) (hnone : (s.port c).outstanding = none)
    (hw : (s.port c).awaited = some w) (htake : takeTag w.tag (s.claimsOf c).provisional = some (k, rest))
    (hserved : s.arrivalRefusal c = none) : exec (.present c body) s =
      .next (settle (s.setPort c (heard (s.port c))) (s.presentedAfterWrite c card k rest) []).select := by
  have hidle : (s.setPort c (heard (s.port c))).withdrawPresentation c = s.setPort c (heard (s.port c)) := by
    refine withdrawPresentation_none ?_
    rw [port_setPort, if_pos rfl]
    exact hnone
  have hserved' : ((s.setPort c (heard (s.port c))).endWriteUnknown c).arrivalRefusal c = none := by
    obtain ⟨_, _, _, _, h⟩ := endWriteUnknown_frame (s.setPort c (heard (s.port c))) c
    rw [h]
    exact hserved
  rw [exec_present hrun hup hbody, takePresent_served (congrArg (endWriteUnknown · c) hidle) hserved',
    endWriteUnknown_presented hw htake]

/-! ### WITHDRAW (R84) -/

theorem takeWithdraw_other {id : CardId} (h : (s.port c).outstanding = some card) (hid : card.id ≠ id) :
    s.takeWithdraw c id = s := by
  rw [takeWithdraw, h]
  exact if_neg hid

theorem takeWithdraw_same {id : CardId} (h : (s.port c).outstanding = some card) (hid : card.id = id) :
    s.takeWithdraw c id = s.withdrawn c := by
  rw [takeWithdraw, h]
  exact (if_pos hid).trans (withdrawPresentation_held (by rw [h]; exact nofun))

end Sys2Proof.Machine.State

open Sys2Proof Sys2Proof.Machine Sys2Proof.Machine.State

/-- Settles O57: what a PRESENT ends, then its arrival, then the event's end, which leaves settled channels as they
are and selects. -/
theorem presentAndWithdraw : Obligations.PresentAndWithdraw := by
  intro s c body hrun hup
  have hport : (s.setPort c (heard (s.port c))).port c = heard (s.port c) := (port_setPort ..).trans (if_pos rfl)
  refine ⟨fun card hbody hnone hawaited hbusy => ?_, fun card hbody hawaited hderived hserved => ⟨?_, ?_, ?_⟩, ?_, ?_⟩
  · have hexec := (exec_present hrun hup hbody).trans (congrArg Host.Outcome.next
      (takePresent_idle (by rw [hport]; exact hnone) (by rw [hport]; exact hawaited)))
    obtain ⟨hframe, hgates, hrefused⟩ := settle_arrives (s.setPort c (heard (s.port c))) c card
    generalize settle (s.setPort c (heard (s.port c))) _ [] = v at *
    obtain ⟨w, hw⟩ := Option.ne_none_iff_exists'.mp hbusy
    have hwork : v.engine.work = some w := by rw [hframe]; exact hw
    rw [select_of_work hwork] at hexec
    refine ⟨v, hexec, hframe, hgates, fun hderived hserved => ?_, fun code hcode => ?_⟩
    · obtain ⟨t, ht, hhands⟩ := present_waits hrun hup hbody hawaited hderived hserved
        (by rw [readied_none hnone]; exact hbusy)
      obtain rfl : v = t := Host.Outcome.next.inj (hexec.symm.trans ht)
      rw [presented_first hnone] at hhands
      refine ⟨hhands.frame, fun d => ?_⟩
      obtain ⟨hstate, hshown, htallies⟩ := hhands.chan d
      exact ⟨hstate, hshown, htallies.trans (if_neg fun h => nomatch h.2)⟩
    · have h := hrefused code (arrivalRefusal_of hcode)
      rw [hport] at h
      exact h
  · intro hnone hfree hplaces hdesk hcount
    have hidle : s.candidates = [] := by
      simp [candidates, channelCandidate, deskCandidate, hplaces, hdesk]
    obtain ⟨t, hexec, hhands⟩ := present_taken hrun hup hbody hawaited hderived hserved
      (by rw [readied_none hnone]; exact hfree) hidle
    rw [presented_first hnone, decide_eq_true hcount] at hhands
    refine ⟨t, hexec, ?_, fun d => ?_⟩
    · have hplace : (s.arbiter.places.set c (some ⟨card, s.uptime⟩)).set c none = s.arbiter.places := by
        rw [PerChan.set_set, ← hplaces c]
        exact PerChan.set_get_self ..
      refine hhands.frame.trans ?_
      dsimp only
      rw [if_pos rfl, hplace]
      rfl
    · obtain ⟨hstate, hshown, htallies⟩ := hhands.chan d
      exact ⟨hstate, hshown, htallies.trans (if_congr (and_iff_left rfl) rfl rfl)⟩
  · intro hheld hfree hidle
    obtain ⟨t, hexec, hhands⟩ := present_taken hrun hup hbody hawaited hderived hserved
      (by rw [readied_held hheld]; exact congrArg (Option.map _) hfree) (hidle hfree)
    rw [presented_over hheld] at hhands
    refine ⟨t, hexec, ?_, fun d => ?_⟩
    · refine hhands.frame.trans ?_
      by_cases hcount : (s.claimsOf c).count < 3
      · simp only [decide_eq_true hcount, if_pos hcount, PerChan.set_set]
        rfl
      · simp only [decide_eq_false hcount, if_neg hcount, hfree]
        rfl
    · obtain ⟨hstate, hshown, htallies⟩ := hhands.chan d
      exact ⟨hstate, hshown, htallies.trans (if_congr (and_congr_right fun _ => decide_eq_true_iff) rfl rfl)⟩
  · intro hheld hbusy
    obtain ⟨t, hexec, hhands⟩ := present_waits hrun hup hbody hawaited hderived hserved
      (by rw [readied_held hheld]; exact fun h => hbusy (Option.map_eq_none_iff.mp h))
    rw [presented_over hheld] at hhands
    refine ⟨t, hexec, hhands.frame, fun d => ?_⟩
    obtain ⟨hstate, hshown, htallies⟩ := hhands.chan d
    exact ⟨hstate, hshown, htallies.trans (if_neg fun h => nomatch h.2)⟩
  · intro card w xs k ys hbody hnone hw hclaims hxs hk hderived hserved hbusy
    have htake : takeTag w.tag (s.claimsOf c).provisional = some (k, xs ++ ys) := by
      rw [hclaims]
      exact takeTag_append hxs hk
    have hexec := exec_present_afterWrite hrun hup hbody hnone hw htake hserved
    obtain ⟨⟨_, _, _, hframe⟩, hchan, hports⟩ := settle_reshows (before := s.setPort c (heard (s.port c)))
      (presentedAfterWrite_derived (c := c) (card := card) (k := k) (rest := xs ++ ys)
        ((channelsDerived_iff s).mp hderived hrun))
    obtain ⟨houtstanding, hawaited⟩ := presentedAfterWrite_port s c card k (xs ++ ys)
    generalize settle (s.setPort c (heard (s.port c))) _ [] = v at *
    obtain ⟨m, hm⟩ := Option.ne_none_iff_exists'.mp hbusy
    have hwork : v.engine.work = some m := by rw [hframe]; exact hm
    rw [select_of_work hwork] at hexec
    obtain ⟨_, _, hportc⟩ := hports c
    refine ⟨v, hexec, ?_, by rw [hportc]; exact houtstanding, by rw [hportc]; exact hawaited, fun d => ?_⟩
    · rw [hframe]
      rfl
    · obtain ⟨_, _, hd⟩ := hchan d
      rw [hd]
      exact ⟨rfl, rfl⟩
  · intro id card hbody houtstanding
    have houtstanding' : ((s.setPort c (heard (s.port c))).port c).outstanding = some card := by
      rw [hport]
      exact houtstanding
    refine ⟨fun hid => ?_, fun hid => ?_⟩
    · rw [exec_withdraw hrun hup hbody, takeWithdraw_other houtstanding' hid]
      rfl
    · rw [exec_withdraw hrun hup hbody, takeWithdraw_same houtstanding' hid]
      cases c <;> rfl
end

section
/-! The custody of presentations: for each channel, its reader line, whether a presentation is outstanding or a write
awaited on it, and how many places hold its presentation. What a part of an event keeps of the custodies is one relation;
a case taken out of its place is in hand until a verdict answers it or another place holds it. -/

namespace Sys2Proof.Machine

open Safety

/-! ### Custodies (R78, R83, R85) -/

/-- What the conditions on presentations and awaited writes speak of, at one channel. -/
structure Custody where
  line : LineState
  outstanding : Bool
  awaited : Bool
  holders : Nat

/-- The custody of a channel's presentation. -/
def State.custody (s : State) (c : Chan) : Custody where
  line := (s.port c).line
  outstanding := (s.port c).outstanding.isSome
  awaited := (s.port c).awaited.isSome
  holders := s.holders c

namespace Custody

/-- An outstanding presentation has one holder, and no place holds another (R83). -/
def Once (k : Custody) : Prop := k.holders = oneIf k.outstanding

/-- A presentation is outstanding, or a write awaited, only on a line that is UP, and never both (R83, R85). -/
structure Sound (k : Custody) : Prop where
  outstanding : k.outstanding = true → k.line = .up
  awaited : k.awaited = true → k.line = .up ∧ k.outstanding = false

/-- A custody after a part of an event: each condition is kept on its own. -/
structure Kept (k m : Custody) : Prop where
  once : k.Once → m.Once
  sound : k.Sound → m.Sound

/-- A custody with its case in hand: the presentation is outstanding, and no place holds it. -/
structure Takes (k m : Custody) : Prop where
  outstanding : k.Once → m.outstanding = true
  holders : k.Once → m.holders = 0
  sound : k.Sound → m.Sound

/-- A custody after a verdict for its presentation, if one is outstanding; a write-back is awaited (R84, R85). -/
def answered (k : Custody) (writes : Bool) : Custody :=
  if k.outstanding then { k with outstanding := false, awaited := k.awaited || writes } else k

/-- A custody after its presentation, if one is outstanding, was withdrawn from whatever held it (R84). -/
def withdrawn (k : Custody) : Custody := if k.outstanding then { k with outstanding := false, holders := 0 } else k

/-- A custody with neither a presentation nor an awaited write left. -/
def ended (k : Custody) : Custody := { k.withdrawn with awaited := false }

variable {k l m : Custody}

theorem Kept.same (k : Custody) : k.Kept k := ⟨id, id⟩

theorem Kept.of_eq (h : m = k) : k.Kept m := h ▸ .same k

theorem Kept.trans (h : k.Kept l) (g : l.Kept m) : k.Kept m := ⟨g.once ∘ h.once, g.sound ∘ h.sound⟩

theorem withdrawn_outstanding (k : Custody) : k.withdrawn.outstanding = false := by
  unfold withdrawn
  split
  · rfl
  · next h => exact Bool.eq_false_iff.mpr h

theorem withdrawn_holders (h : k.Once) : k.withdrawn.holders = 0 := by
  unfold withdrawn
  split
  · rfl
  · next hout =>
    rw [Once, Bool.eq_false_iff.mpr hout] at h
    exact h

theorem withdrawn_line (k : Custody) : k.withdrawn.line = k.line := by unfold withdrawn; split <;> rfl

theorem withdrawn_awaited (k : Custody) : k.withdrawn.awaited = k.awaited := by unfold withdrawn; split <;> rfl

theorem withdrawn_kept (k : Custody) : k.Kept k.withdrawn where
  once h := by rw [Once, withdrawn_outstanding, withdrawn_holders h]; rfl
  sound h := by
    refine ⟨fun hout => ?_, fun hawaited => ?_⟩
    · rw [withdrawn_outstanding] at hout
      cases hout
    · rw [withdrawn_awaited] at hawaited
      rw [withdrawn_line]
      exact ⟨(h.awaited hawaited).1, withdrawn_outstanding k⟩

/-- With nothing left on its line, a custody is kept whatever becomes of the line. -/
theorem ended_kept (k : Custody) (line : LineState) : k.Kept { k.ended with line := line } where
  once := (withdrawn_kept k).once
  sound _ := ⟨fun hout => Bool.noConfusion ((withdrawn_outstanding k).symm.trans hout), nofun⟩

theorem ended_line (k : Custody) (line : LineState) :
    ({ k with line := line } : Custody).ended = { k.ended with line := line } := by
  obtain ⟨_, outstanding, _, _⟩ := k
  cases outstanding <;> rfl

theorem unawaited_kept (k : Custody) : k.Kept { k with awaited := false } := ⟨id, fun h => ⟨h.outstanding, nofun⟩⟩

/-- A line that comes UP allows what was there before. -/
theorem up_kept (k : Custody) : k.Kept { k with line := .up } :=
  ⟨id, fun h => ⟨fun _ => rfl, fun hawaited => ⟨rfl, (h.awaited hawaited).2⟩⟩⟩

/-- On a line that is not UP nothing rests, so that it may become any other. -/
theorem line_kept (h : k.line ≠ .up) (line : LineState) : k.Kept { k with line := line } where
  once := id
  sound hk := ⟨fun hout => absurd (hk.outstanding hout) h, fun hawaited => absurd (hk.awaited hawaited).1 h⟩

/-- A place that held the case is empty. -/
theorem takes_of_succ (h : k = { m with holders := m.holders + 1 }) : k.Takes m := by
  subst h
  refine ⟨fun honce => ?_, fun honce => ?_, fun hs => ⟨hs.outstanding, hs.awaited⟩⟩
  · by_contra hout
    rw [Once, Bool.eq_false_iff.mpr hout] at honce
    exact Nat.succ_ne_zero _ honce
  · have hle : oneIf m.outstanding ≤ 1 := by cases m.outstanding <;> decide
    have hsucc : m.holders + 1 = oneIf m.outstanding := honce
    omega

/-- A new presentation on a line that is UP, where nothing was left, is in hand (R83). -/
theorem presented_takes (h : k.line = .up) : k.Takes { k.ended with outstanding := true } where
  outstanding _ := rfl
  holders := withdrawn_holders
  sound _ := ⟨fun _ => (withdrawn_line k).trans h, nofun⟩

theorem Takes.answered (h : k.Takes m) (writes : Bool) : k.Kept (m.answered writes) where
  once hk := by
    rw [Custody.answered, if_pos (h.outstanding hk)]
    exact h.holders hk
  sound hk := by
    have hm := h.sound hk
    unfold Custody.answered
    split
    · next hout => exact ⟨nofun, fun _ => ⟨hm.outstanding hout, rfl⟩⟩
    · exact hm

/-- The case in hand is held at one place again. -/
theorem Takes.held (h : k.Takes m) {n : Nat} (hn : m.holders = 0 → n = 1) : k.Kept { m with holders := n } where
  once hk := by
    rw [Once, h.outstanding hk, hn (h.holders hk)]
    rfl
  sound hk := ⟨(h.sound hk).outstanding, (h.sound hk).awaited⟩

end Custody

namespace State

/-- What a part of an event keeps of the custodies. -/
def CustodyKept (s t : State) : Prop := ∀ c, (s.custody c).Kept (t.custody c)

/-- A part of an event that found the custodies of `o` has the case of a channel in hand. -/
structure InHand (o s : State) (c : Chan) : Prop where
  others : ∀ d, d ≠ c → (o.custody d).Kept (s.custody d)
  taken : (o.custody c).Takes (s.custody c)

variable {o s t u : State} {c d : Chan}

theorem heldOnce_iff (s : State) : HeldOnce s ↔ ∀ c, (s.custody c).Once := Iff.rfl

theorem portsSound_iff (s : State) : PortsSound s ↔ ∀ c, (s.custody c).Sound := by
  refine forall_congr' fun c => ⟨fun ⟨hout, hawaited⟩ => ⟨hout, fun h => ?_⟩, fun h => ⟨h.outstanding, fun ha => ?_⟩⟩
  · obtain ⟨hup, hnone⟩ := hawaited h
    exact ⟨hup, Option.isSome_eq_false_iff.mpr (Option.isNone_iff_eq_none.mpr hnone)⟩
  · obtain ⟨hup, hnone⟩ := h.awaited ha
    exact ⟨hup, Option.isNone_iff_eq_none.mp (Option.isSome_eq_false_iff.mp hnone)⟩

theorem CustodyKept.of_custody (h : t.custody = s.custody) : s.CustodyKept t := fun c => .of_eq (congrFun h c)

theorem CustodyKept.same (s : State) : s.CustodyKept s := .of_custody rfl

theorem CustodyKept.trans (h : s.CustodyKept t) (g : t.CustodyKept u) : s.CustodyKept u := fun c => (h c).trans (g c)

/-- A part of an event after another: the later first, so that what is left to show ends where it begins. -/
theorem CustodyKept.after (g : t.CustodyKept u) (h : s.CustodyKept t) : s.CustodyKept u := h.trans g

/-- A change of one channel's custody. -/
theorem CustodyKept.of_one (hothers : ∀ d, d ≠ c → t.custody d = s.custody d) (h : (s.custody c).Kept (t.custody c)) :
    s.CustodyKept t := by
  intro d
  by_cases hd : d = c
  · exact hd ▸ h
  · exact .of_eq (hothers d hd)

/-- A part of an event that leaves the custodies as they are leaves the case in hand. -/
theorem InHand.andSame (h : o.InHand s c) (e : t.custody = s.custody) : o.InHand t c :=
  ⟨fun d hd => e ▸ h.others d hd, e ▸ h.taken⟩

/-- The case in hand is answered, or held at a place: its channel alone changes. -/
theorem InHand.closed (h : o.InHand s c) (hothers : ∀ d, d ≠ c → t.custody d = s.custody d)
    (hcase : (o.custody c).Kept (t.custody c)) : o.CustodyKept t := by
  intro d
  by_cases hd : d = c
  · exact hd ▸ hcase
  · exact hothers d hd ▸ h.others d hd

/-! ### The places that hold presentations -/

/-- A channel's place in the pending set filled or emptied. -/
def setPlace (s : State) (c : Chan) (p : Option Pending) : State :=
  { s with arbiter := { s.arbiter with places := s.arbiter.places.set c p } }

/-- The engine's work replaced. -/
def setWork (s : State) (w : Option Work) : State := { s with engine := { s.engine with work := w } }

theorem setPlace_holders_self (s : State) (c : Chan) (p : Option Pending) :
    (s.setPlace c p).holders c + oneIf (s.arbiter.places.get c).isSome = s.holders c + oneIf p.isSome := by
  have hplace : (s.setPlace c p).arbiter.places.get c = p := (PerChan.get_set ..).trans (if_pos rfl)
  have hwork : (s.setPlace c p).worksFor c = s.worksFor c := rfl
  have hslot (i : Slot) : (s.setPlace c p).slotFor c i = s.slotFor c i := by cases i <;> rfl
  simp only [holders, hplace, hwork, hslot]
  omega

theorem setPlace_holders_other (hd : d ≠ c) (s : State) (p : Option Pending) :
    (s.setPlace c p).holders d = s.holders d := by
  have hplace : (s.setPlace c p).arbiter.places.get d = s.arbiter.places.get d :=
    (PerChan.get_set ..).trans (if_neg hd)
  simp only [holders, hplace]
  rfl

theorem setWork_holders (s : State) (w : Option Work) (d : Chan) :
    (s.setWork w).holders d + oneIf (s.worksFor d) = s.holders d + oneIf ((s.setWork w).worksFor d) := by
  have hplace : (s.setWork w).arbiter = s.arbiter := rfl
  have hslot (i : Slot) : (s.setWork w).slotFor d i = s.slotFor d i := by cases i <;> rfl
  simp only [holders, hplace, hslot]
  omega

theorem slotFor_setSlot (s : State) (i j : Slot) (r : Option Referral) (d : Chan) :
    (s.setSlot i r).slotFor d j = if j = i then r.any (·.channel = d) else s.slotFor d j := by
  rw [slotFor, slot_setSlot]
  by_cases hj : j = i
  · rw [if_pos hj, if_pos hj]
    cases r <;> rfl
  · rw [if_neg hj, if_neg hj]
    rfl

theorem worksFor_setSlot (s : State) (i : Slot) (r : Option Referral) (d : Chan) :
    (s.setSlot i r).worksFor d = s.worksFor d := by cases i <;> rfl

theorem setSlot_holders (s : State) (i : Slot) (r : Option Referral) (d : Chan) :
    (s.setSlot i r).holders d + oneIf (s.slotFor d i) = s.holders d + oneIf (r.any (·.channel = d)) := by
  simp only [holders, setSlot_arbiter, worksFor_setSlot, slotFor_setSlot]
  cases i
  · rw [if_pos rfl, if_neg (by decide)]
    omega
  · rw [if_neg (by decide), if_pos rfl]
    omega

theorem slotFor_of_slot {i : Slot} {r : Referral} (h : s.slot i = some r) (d : Chan) :
    s.slotFor d i = decide (r.channel = d) := by
  rw [slotFor, h]

/-- A change of the holders alone, at one channel. -/
theorem custody_of_holders (hports : t.ports = s.ports) (d : Chan) :
    t.custody d = { s.custody d with holders := t.holders d } := by
  rw [custody, port, hports]
  rfl

theorem custody_eq_of_holders (hports : t.ports = s.ports) (h : t.holders d = s.holders d) :
    t.custody d = s.custody d := by
  rw [custody_of_holders hports, h]
  rfl

/-- One place of a channel's case is emptied, and nothing else changes. -/
theorem InHand.of_emptied (hports : s.ports = o.ports) (hothers : ∀ d, d ≠ c → s.holders d = o.holders d)
    (hcase : o.holders c = s.holders c + 1) : o.InHand s c where
  others d hd := .of_eq (custody_eq_of_holders hports (hothers d hd))
  taken := Custody.takes_of_succ ((custody_of_holders hports.symm c).trans (by rw [hcase]; rfl))

theorem emptyPlace_inHand {p : Pending} (h : s.arbiter.places.get c = some p) : s.InHand (s.setPlace c none) c := by
  refine .of_emptied rfl (fun d hd => setPlace_holders_other hd s none) ?_
  have hself := setPlace_holders_self s c none
  rw [h] at hself
  exact hself.symm

theorem emptySlot_inHand {i : Slot} {r : Referral} (h : s.slot i = some r) : s.InHand (s.setSlot i none) r.channel := by
  refine .of_emptied (setSlot_ports ..) (fun d hd => ?_) ?_
  · have hslot := setSlot_holders s i none d
    rw [slotFor_of_slot h, decide_eq_false (Ne.symm hd)] at hslot
    exact hslot
  · have hslot := setSlot_holders s i none r.channel
    rw [slotFor_of_slot h, decide_eq_true rfl] at hslot
    exact hslot.symm

theorem fillPlace_closes (h : o.InHand s c) (p : Pending) : o.CustodyKept (s.setPlace c (some p)) := by
  refine h.closed (fun d hd => custody_eq_of_holders rfl (setPlace_holders_other hd s _)) ?_
  rw [custody_of_holders (s := s) (t := s.setPlace c (some p)) rfl]
  refine h.taken.held fun hnone => ?_
  have hself := setPlace_holders_self s c (some p)
  have hheld : s.holders c = 0 := hnone
  have hplace : oneIf (s.arbiter.places.get c).isSome = 0 := by rw [holders] at hheld; omega
  rw [hheld, hplace] at hself
  exact hself

theorem fillSlot_closes {r : Referral} {i : Slot} (h : o.InHand s r.channel) (hfree : s.slot i = none) :
    o.CustodyKept (s.setSlot i (some r)) := by
  have hslot (d : Chan) := setSlot_holders s i (some r) d
  have hempty (d : Chan) : s.slotFor d i = false := by rw [slotFor, hfree]
  refine h.closed (fun d hd => custody_eq_of_holders (setSlot_ports ..) ?_) ?_
  · have hd' := hslot d
    rw [hempty, Option.any_some, decide_eq_false (Ne.symm hd)] at hd'
    exact hd'
  · rw [custody_of_holders (s := s) (setSlot_ports ..)]
    refine h.taken.held fun hnone => ?_
    have hself := hslot r.channel
    rw [hempty, Option.any_some, decide_eq_true rfl] at hself
    have hheld : s.holders r.channel = 0 := hnone
    rw [hheld] at hself
    exact hself

end State

end Sys2Proof.Machine
end

section
/-! What the shared operations keep of the custodies: records and verdicts on the reader lines, an event's end, a
selection, a presentation withdrawn, and a case taken to its verdict or referred. -/

namespace Sys2Proof.Machine.State

variable {o s t u : State} {c d : Chan}

/-! ### Ports, records and verdicts (R82 to R86) -/

theorem custody_of_ports (hholders : t.holders = s.holders)
    (hports : ∀ d, (t.port d).line = (s.port d).line ∧ (t.port d).outstanding = (s.port d).outstanding ∧
      (t.port d).awaited = (s.port d).awaited) : t.custody = s.custody := by
  funext d
  obtain ⟨hline, hout, hawaited⟩ := hports d
  rw [custody, custody, hline, hout, hawaited, hholders]

theorem setPort_custody (s : State) (c : Chan) (p : Port) (d : Chan) : (s.setPort c p).custody d =
    if d = c then ⟨p.line, p.outstanding.isSome, p.awaited.isSome, s.holders c⟩ else s.custody d := by
  rw [custody, port_setPort]
  split
  · next hd => exact hd ▸ rfl
  · rfl

theorem setPort_custody_self (s : State) (c : Chan) (p : Port) :
    (s.setPort c p).custody c = ⟨p.line, p.outstanding.isSome, p.awaited.isSome, s.holders c⟩ :=
  (setPort_custody ..).trans (if_pos rfl)

theorem setPort_custody_other (hd : d ≠ c) (s : State) (p : Port) : (s.setPort c p).custody d = s.custody d :=
  (setPort_custody ..).trans (if_neg hd)

/-- A port with the line, the presentation and the awaited write it had. -/
theorem setPort_custody_same {p : Port} (h : (⟨p.line, p.outstanding.isSome, p.awaited.isSome, s.holders c⟩ : Custody) =
    s.custody c) : (s.setPort c p).custody = s.custody := by
  funext d
  rw [setPort_custody]
  split
  · next hd => rw [h, hd]
  · rfl

theorem setPort_custodyKept {p : Port}
    (h : (s.custody c).Kept ⟨p.line, p.outstanding.isSome, p.awaited.isSome, s.holders c⟩) :
    s.CustodyKept (s.setPort c p) :=
  .of_one (fun _ hd => setPort_custody_other hd s p) ((setPort_custody_self s c p).symm ▸ h)

theorem startRecord_custody (s : State) (c : Chan) (r : ReaderRecord) : (s.startRecord c r).custody = s.custody := by
  obtain ⟨k, p, h⟩ := startRecord_frame s c r
  refine custody_of_ports (by rw [h]; rfl) fun d => ?_
  rw [startRecord_port]
  split
  · next hd => exact hd ▸ ⟨rfl, rfl, rfl⟩
  · exact ⟨rfl, rfl, rfl⟩

theorem sendRecord_custody (s : State) (c : Chan) (r : ReaderRecord) : (s.sendRecord c r).custody = s.custody := by
  obtain ⟨k, p, h⟩ := sendRecord_frame s c r
  refine custody_of_ports (by rw [h]; rfl) fun d => ?_
  obtain ⟨g, w, hport⟩ := sendRecord_port s c d r
  rw [hport]
  exact ⟨rfl, rfl, rfl⟩

theorem sendSetup_custody (s : State) (c : Chan) : (s.sendSetup c).custody = s.custody := sendRecord_custody _ c _

theorem attachAnew_custody (s : State) (c : Chan) : (s.attachAnew c).custody = s.custody := by
  refine Eq.trans ?_ (sendSetup_custody s c)
  exact setPort_custody_same (s := s.sendSetup c) (c := c) rfl

/-- A verdict answers the presentation of its channel, if one is outstanding. -/
theorem deliver_custody (s : State) (c : Chan) (v : Verdict) (d : Chan) : (s.deliver c v).custody d =
    if d = c then (s.custody c).answered v.writeBack.isSome else s.custody d := by
  unfold deliver
  split
  · next hnone =>
    have hout : (s.custody c).outstanding = false := congrArg Option.isSome hnone
    rw [Custody.answered, hout]
    split
    · next hd => rw [hd]; rfl
    · rfl
  · next card hcard =>
    have hout : (s.custody c).outstanding = true := congrArg Option.isSome hcard
    rw [sendRecord_custody, setPort_custody]
    split
    · rw [Custody.answered, if_pos hout]
      cases v.writeBack with
      | none => exact congrArg (Custody.mk _ false · _) (Bool.or_false _).symm
      | some w => exact congrArg (Custody.mk _ false · _) (Bool.or_true _).symm
    · rfl

/-- A verdict ends the case in hand. -/
theorem InHand.deliver (h : o.InHand s c) (v : Verdict) : o.CustodyKept (s.deliver c v) := by
  refine h.closed (fun d hd => (deliver_custody ..).trans (if_neg hd)) ?_
  rw [deliver_custody, if_pos rfl]
  exact h.taken.answered _

/-! ### The end of an event (R21, R55, R71, R96) -/

theorem queue_custody (s : State) (n : Notice) : (s.queue n).custody = s.custody := by
  rw [queue_eq]
  rfl

theorem queueAll_custody (s : State) (ns : List Notice) : (s.queueAll ns).custody = s.custody := by
  rw [queueAll_eq]
  rfl

theorem refuseDesk_custody (s : State) (code : VerdictCode) : (s.refuseDesk code).custody = s.custody := by
  unfold refuseDesk
  split
  · rfl
  · exact queue_custody _ _

theorem refusePending_custodyKept (s : State) (c : Chan) (code : VerdictCode) :
    s.CustodyKept (s.refusePending c code) := by
  unfold refusePending
  split
  · exact .same s
  · next p hp => exact (emptyPlace_inHand hp).deliver _

theorem tellArbiter_custodyKept (old s : State) (c : Chan) : s.CustodyKept (tellArbiter old s c) := by
  unfold tellArbiter
  split
  · exact .same s
  · split
    · exact .same s
    · exact refusePending_custodyKept s c _

theorem showMode_custody (s : State) (c : Chan) : (s.showMode c).custody = s.custody := by
  unfold showMode
  dsimp only
  split
  · exact sendRecord_custody _ c _
  · rfl

theorem settleChannel_custodyKept (s : State) (c : Chan) : s.CustodyKept (s.settleChannel c) := by
  have reported : (reportState s (s.takeState c) c).custody = s.custody := by
    obtain ⟨q, h⟩ := reportState_frame s (s.takeState c) c
    rw [h]
    rfl
  exact ((CustodyKept.of_custody reported).trans (tellArbiter_custodyKept s _ c)).trans
    (.of_custody (showMode_custody _ c))

theorem settle_custodyKept (before s : State) (after : List Notice) : s.CustodyKept (settle before s after) := by
  rw [settle_eq]
  exact (CustodyKept.of_custody (queueAll_custody s _)).trans <| (settleChannel_custodyKept _ .c0).trans <|
    (settleChannel_custodyKept _ .c1).trans <| (settleChannel_custodyKept _ .c2).trans (settleChannel_custodyKept _ .c3)

/-! ### The arbiter's selection (R92, R94) -/

/-- A requester's card in a free engine's hands. -/
theorem takeWork_holders (hfree : s.engine.work = none) (q : Requester) (card : Card) (d : Chan) :
    (s.takeWork q card).holders d = s.holders d + oneIf (decide (q = .channel d)) := by
  have hwork := setWork_holders s (some ⟨q, card, s.snapshot, false, .none⟩) d
  have hbefore : s.worksFor d = false := by rw [worksFor, hfree]
  have hafter : (s.setWork (some ⟨q, card, s.snapshot, false, .none⟩)).worksFor d = decide (q = .channel d) :=
    Bool.and_true _
  rw [hbefore, hafter] at hwork
  exact hwork

/-- A free engine that takes the case in hand holds it. -/
theorem takeWork_closes (h : o.InHand s c) (hfree : s.engine.work = none) (card : Card) :
    o.CustodyKept (s.takeWork (.channel c) card) := by
  have hwork := takeWork_holders hfree (.channel c) card
  refine h.closed (fun d hd => custody_eq_of_holders rfl ?_) ?_
  · rw [hwork, decide_eq_false fun e => hd (Requester.channel.inj e).symm]
    rfl
  · rw [custody_of_holders (s := s) (t := s.takeWork (.channel c) card) rfl]
    refine h.taken.held fun hnone => ?_
    have hheld : s.holders c = 0 := hnone
    rw [hwork, hheld, decide_eq_true rfl]
    rfl

/-- A hand-over moves a presentation from its place to the engine, which holds it instead. -/
theorem handOver_custodyKept (hfree : s.engine.work = none) (q : Requester) : s.CustodyKept (s.handOver q) := by
  unfold handOver
  split
  · split
    · exact .same s
    · next p hp => exact takeWork_closes ((emptyPlace_inHand hp).andSame rfl) hfree p.card
  · split
    · exact .same s
    · next p _ =>
      refine .of_custody (funext fun d => custody_eq_of_holders rfl ?_)
      exact takeWork_holders (s := { s with arbiter := { s.arbiter with desk := none } }) hfree (.desk p.line) p.card d

theorem select_custodyKept (s : State) : s.CustodyKept s.select := by
  unfold select
  split
  · exact .same s
  · next hfree =>
    split
    · exact .same s
    · exact handOver_custodyKept (by simpa using hfree) _

/-- How an event with a selection ends. -/
theorem settleSelect_custodyKept (before s : State) (after : List Notice) :
    s.CustodyKept (settle before s after).select :=
  (settle_custodyKept before s after).trans (select_custodyKept _)

end Sys2Proof.Machine.State
end

section
/-! What the records of a reader, the engine and the referrals keep of the custodies: a presentation withdrawn or
arriving, and a case taken to its verdict, referred or resolved. -/

namespace Sys2Proof.Machine.State

variable {o s t u : State} {c d : Chan}

/-! ### A presentation withdrawn, and an awaited write ended (R84, R86) -/

theorem markWithdrawn_worksFor (s : State) (c d : Chan) :
    (s.markWithdrawn c).worksFor d = (s.worksFor d && decide (d ≠ c)) := by
  cases hwork : s.engine.work with
  | none =>
    unfold markWithdrawn
    simp only [hwork, worksFor]
    rfl
  | some w =>
    rw [worksFor, worksFor, markWithdrawn_work hwork, hwork]
    by_cases hw : w.requester = .channel c
    · by_cases hd : d = c
      · simp [hw, hd]
      · simp [hw, hd, Ne.symm hd]
    · by_cases hd : d = c
      · simp [hw, hd]
      · simp [hw, hd]

theorem dropReferral_slotFor (s : State) (c d : Chan) (i j : Slot) :
    (s.dropReferral c i).slotFor d j = (s.slotFor d j && decide (j = i → d ≠ c)) := by
  unfold dropReferral
  split
  · next hnone =>
    by_cases hj : j = i
    · rw [slotFor, hj, hnone]
      rfl
    · simp [hj]
  · next r hr =>
    split
    · next hc =>
      rw [slotFor_setSlot]
      by_cases hj : j = i
      · rw [if_pos hj, hj, slotFor_of_slot hr, hc]
        by_cases hd : d = c
        · simp [hd]
        · simp [Ne.symm hd]
      · simp [hj]
    · next hc =>
      by_cases hj : j = i
      · rw [hj, slotFor_of_slot hr]
        by_cases hd : d = c
        · simp [hd, hc]
        · simp [hd]
      · simp [hj]

theorem dropReferral_worksFor (s : State) (c d : Chan) (i : Slot) :
    (s.dropReferral c i).worksFor d = s.worksFor d := by rw [worksFor, dropReferral_work, worksFor]

/-- The engine and the slots told of a withdrawal hold nothing of its channel (R103, R157). -/
theorem tellWithdrawn_holders (s : State) (c d : Chan) :
    (((s.markWithdrawn c).dropReferral c .s0).dropReferral c .s1).holders d =
      if d = c then oneIf (s.arbiter.places.get c).isSome else s.holders d := by
  have hslot (i : Slot) : (s.markWithdrawn c).slotFor d i = s.slotFor d i := by
    obtain ⟨w, h⟩ := markWithdrawn_frame s c
    rw [h]
    cases i <;> rfl
  have hplaces : (((s.markWithdrawn c).dropReferral c .s0).dropReferral c .s1).arbiter = s.arbiter := by
    obtain ⟨w, x, y, h⟩ := tellWithdrawn_frame s c
    rw [h]
  simp only [holders, hplaces, dropReferral_worksFor, markWithdrawn_worksFor, dropReferral_slotFor, hslot]
  split
  · next hd => simp [hd, oneIf]
  · next hd => simp [hd]

theorem withdrawPresentation_custody (s : State) (c d : Chan) : (s.withdrawPresentation c).custody d =
    if d = c then (s.custody c).withdrawn else s.custody d := by
  have hport := withdrawPresentation_port s c d
  unfold withdrawPresentation at hport ⊢
  split at hport
  · next hnone =>
    have hout : (s.custody c).outstanding = false := congrArg Option.isSome hnone
    rw [Custody.withdrawn, hout]
    split
    · next hd => rw [hd]; rfl
    · rfl
  · next card hcard =>
    have hout : (s.custody c).outstanding = true := congrArg Option.isSome hcard
    dsimp only at hport ⊢
    rw [custody, hport, tellWithdrawn_holders]
    split
    · next hd =>
      rw [Custody.withdrawn, if_pos hout]
      refine congrArg (Custody.mk _ false _) ?_
      rw [show PerChan.get _ c = none from (PerChan.get_set ..).trans (if_pos rfl)]
      rfl
    · next hd =>
      have hholders : State.holders { (s.setPort c { s.port c with outstanding := none }) with
          arbiter := { s.arbiter with places := s.arbiter.places.set c none } } d = s.holders d :=
        setPlace_holders_other hd s none
      exact congrArg (Custody.mk _ _ _) hholders

theorem withdrawPresentation_custodyKept (s : State) (c : Chan) : s.CustodyKept (s.withdrawPresentation c) := by
  intro d
  rw [withdrawPresentation_custody]
  split
  · next hd => exact hd ▸ Custody.withdrawn_kept _
  · exact .same _

theorem endWriteUnknown_custody (s : State) (c d : Chan) : (s.endWriteUnknown c).custody d =
    if d = c then { s.custody c with awaited := false } else s.custody d := by
  have hholders : (s.endWriteUnknown c).holders d = s.holders d := by
    obtain ⟨p, k, l, j, h⟩ := endWriteUnknown_frame s c
    rw [h]
    rfl
  rw [custody, endWriteUnknown_port, hholders]
  split
  · next hd => exact hd ▸ rfl
  · rfl

theorem endWriteUnknown_custodyKept (s : State) (c : Chan) : s.CustodyKept (s.endWriteUnknown c) := by
  intro d
  rw [endWriteUnknown_custody]
  split
  · next hd => exact hd ▸ Custody.unawaited_kept _
  · exact .same _

/-- What an event leaves of a line on which it withdraws the presentation and ends the awaited write. -/
theorem ended_custody (s : State) (c d : Chan) : ((s.withdrawPresentation c).endWriteUnknown c).custody d =
    if d = c then (s.custody c).ended else s.custody d := by
  rw [endWriteUnknown_custody, withdrawPresentation_custody, withdrawPresentation_custody, if_pos rfl]
  split <;> rfl

/-! ### A presentation arrives (R83, R88) -/

theorem arrive_closes (h : o.InHand s c) (card : Card) : o.CustodyKept (s.arrive c card) := by
  unfold arrive
  split
  · exact h.deliver _
  · exact fillPlace_closes h _

/-- A new presentation on a line that is UP is in hand until it arrives. -/
theorem presented_inHand (hup : (s.port c).line = .up) (card : Card)
    (hu : u = (s.withdrawPresentation c).endWriteUnknown c) :
    s.InHand (u.setPort c { u.port c with outstanding := some card }) c where
  others d hd := by
    rw [setPort_custody_other hd, hu, ended_custody, if_neg hd]
    exact .same _
  taken := by
    have hended : u.custody c = (s.custody c).ended := by rw [hu, ended_custody, if_pos rfl]
    rw [setPort_custody_self]
    have h := Custody.presented_takes (k := s.custody c) hup
    rw [← hended] at h
    exact h

theorem takePresent_custodyKept (hup : (s.port c).line = .up) (card : Card) : s.CustodyKept (s.takePresent c card) := by
  unfold takePresent
  exact (settleSelect_custodyKept _ _ _).after (arrive_closes (presented_inHand hup card rfl) card)

/-! ### A case taken to its verdict (R105, R111, R112) -/

theorem refuseCase_closes (h : o.InHand s c) (card : Card) (code : VerdictCode) :
    o.CustodyKept (s.refuseCase c card code).state := h.deliver _

theorem requestSeats_custody (s : State) (r : SeatRequest) : (s.requestSeats r).1.custody = s.custody := by
  obtain ⟨n, l, h⟩ := requestSeats_frame s r
  rw [h]
  rfl

theorem readmit_custody (s : State) (c : Chan) (id : CardId) : (s.readmit c id).custody = s.custody := by
  obtain ⟨j, h⟩ := readmit_frame s c id
  rw [h]
  rfl

theorem stageTen_closes (h : o.InHand s c) (card : Card) (clock : Option ClockTime) (k : Terms) :
    o.CustodyKept (s.stageTen c card clock k).state := by
  unfold stageTen
  dsimp only
  generalize hdrawn : (if k.writes = true then s.drawTag.setNote c s.engine.nextTag k.charge else s) = drawn
  have drew : drawn.custody = s.custody := by
    rw [← hdrawn]
    split <;> rfl
  have held := (h.andSame drew).andSame (requestSeats_custody drawn (seatRequest c card k s.engine.nextTag))
  split
  · next u _ heq =>
    rw [heq] at held
    refine InHand.deliver (held.andSame ?_) _
    split
    · exact readmit_custody u c _
    · rfl
  all_goals
    next u heq =>
      rw [heq] at held
      exact refuseCase_closes held card _

theorem acceptCase_closes (h : o.InHand s c) (card : Card) (clock : Option ClockTime) (k : Terms) :
    o.CustodyKept (s.acceptCase c card clock k).state := by
  unfold acceptCase
  split
  · exact refuseCase_closes h card _
  · exact stageTen_closes h card clock k

/-! ### Referrals (R151 to R157, R179) -/

theorem fallback_closes (h : o.InHand s c) (card : Card) (cause : Cause) (block : Nat) :
    o.CustodyKept (s.fallback c card cause block).state := by
  unfold fallback
  split
  · exact refuseCase_closes h card _
  · exact acceptCase_closes h card _ _

theorem freeSlot_slot {i : Slot} (h : s.freeSlot = some i) : s.slot i = none := by
  unfold freeSlot at h
  split at h
  · next hnone =>
    cases h
    exact Option.isNone_iff_eq_none.mp hnone
  · split at h
    · next hnone =>
      cases h
      exact Option.isNone_iff_eq_none.mp hnone
    · cases h

/-- A referral raised holds the case in hand. -/
theorem raise_closes (h : o.InHand s c) {i : Slot} (hfree : s.slot i = none) (b : Berth) (card : Card) (cause : Cause)
    (block : Nat) : o.CustodyKept (s.raise i c b card cause block) := by
  refine fillSlot_closes (s := { s with engine := { s.engine with
    nextReferral := if s.engine.nextReferral = 255 then 1 else s.engine.nextReferral + 1
    slot1Older := i = Slot.s0 && s.engine.slot1.isSome } }) (h.andSame rfl) ?_
  cases i <;> exact hfree

theorem referCase_closes (h : o.InHand s c) (card : Card) (cause : Cause) (block : Nat) :
    o.CustodyKept (s.referCase c card cause block).1 := by
  unfold referCase
  split
  · next i b hi _ =>
    split
    · exact fallback_closes h card cause block
    · exact raise_closes h (freeSlot_slot hi) b card cause block
  · exact fallback_closes h card cause block

theorem resolveSlot_custodyKept (s : State) (i : Slot) (code : VerdictCode) :
    s.CustodyKept (s.resolveSlot i code) := by
  unfold resolveSlot
  split
  · exact .same s
  · next r hr => exact (emptySlot_inHand hr).deliver _

theorem resolveSlotOfBerth_custodyKept (s : State) (b : Berth) (i : Slot) (code : VerdictCode) :
    s.CustodyKept (s.resolveSlotOfBerth b i code) := by
  unfold resolveSlotOfBerth
  split
  · exact .same s
  · split
    · exact resolveSlot_custodyKept s i code
    · exact .same s

theorem resolveByFallback_custodyKept (s : State) (i : Slot) : s.CustodyKept (s.resolveByFallback i).1 := by
  unfold resolveByFallback
  split
  · exact .same s
  · next r hr => exact fallback_closes (emptySlot_inHand hr) _ _ _

theorem referralRunsOut_custodyKept (s : State) (i : Slot) : s.CustodyKept (s.referralRunsOut i) := by
  unfold referralRunsOut
  split
  · exact .same s
  · split
    · exact (settle_custodyKept _ _ _).after (resolveByFallback_custodyKept s i)
    · exact .same s

theorem supervisionRunsOut_custodyKept (s : State) : s.CustodyKept s.supervisionRunsOut := by
  unfold supervisionRunsOut
  split
  · exact .same s
  · exact (settle_custodyKept _ _ _).after <| (resolveByFallback_custodyKept _ .s1).after <|
      (resolveByFallback_custodyKept _ .s0).after (.of_custody (queue_custody _ _))

theorem answerReferral_custodyKept {i : Slot} {r : Referral} (hslot : s.slot i = some r) (v : AnswerVerdict)
    (fare extra : Nat) : s.CustodyKept (s.answerReferral i r v fare extra).state := by
  have freed := emptySlot_inHand hslot
  unfold answerReferral
  dsimp only
  split
  · exact refuseCase_closes freed _ _
  · exact fallback_closes freed _ _ _
  · refine acceptCase_closes (freed.andSame ?_) _ _ _
    split <;> rfl

theorem actReferAnswer_custodyKept (s : State) (id : Nat) (verdict : Option AnswerVerdict) (fare extra : Nat) :
    s.CustodyKept (s.actReferAnswer id verdict fare extra).state := by
  unfold actReferAnswer
  split
  · exact .same s
  · split
    · exact .same s
    · split
      · exact .same s
      · next i r hslot =>
        split
        · exact .same s
        · dsimp only [Act.ok]
          exact (settle_custodyKept _ _ _).after (answerReferral_custodyKept (slot_of_slotWithId _ hslot) _ _ _)

/-! ### The completion of a work (R103 to R105) -/

/-- The work that the engine falls free of, for a channel's presentation not withdrawn, is in hand. -/
theorem freeEngine_inHand {w : Work} (hwork : s.engine.work = some w) (hreq : w.requester = .channel c)
    (hkept : w.withdrawn = false) : s.InHand s.freeEngine c := by
  have hholders (d : Chan) := setWork_holders s none d
  have hworks (d : Chan) : s.worksFor d = decide (c = d) := by
    rw [worksFor, hwork]
    simp [hreq, hkept]
  refine .of_emptied rfl (fun d hd => ?_) ?_
  · have h := hholders d
    rw [hworks, decide_eq_false (Ne.symm hd)] at h
    exact h
  · have h := hholders c
    rw [hworks, decide_eq_true rfl] at h
    exact h.symm

/-- Work that holds no presentation, the desk's or one withdrawn, leaves the custodies as they are. -/
theorem freeEngine_custody {w : Work} (hwork : s.engine.work = some w)
    (h : w.withdrawn = true ∨ ∀ c, w.requester ≠ .channel c) : s.freeEngine.custody = s.custody := by
  funext d
  refine custody_eq_of_holders rfl ?_
  have hworks : s.worksFor d = false := by
    rw [worksFor, hwork]
    rcases h with h | h
    · simp [h]
    · simp [h d]
  have hholders := setWork_holders s none d
  rw [hworks] at hholders
  exact hholders

theorem denyWithBlock_closes (h : o.InHand s c) (card : Card) : o.CustodyKept (s.denyWithBlock c card) :=
  InHand.deliver (s := s.drawTag) (h.andSame rfl) _

theorem completeStages_closes (h : o.InHand s c) (w : Work) : o.CustodyKept (s.completeStages c w).1 := by
  unfold completeStages
  dsimp only
  generalize hnoted : (if (s.decideCard w.card w.snap (s.lineOf c)).2 = true then s.resolveNewest w.card.id else s) =
    noted
  have inHand : o.InHand noted c := by
    rw [← hnoted]
    split
    · exact h.andSame rfl
    · exact h
  split
  · exact inHand.deliver _
  · exact denyWithBlock_closes inHand _
  · exact acceptCase_closes inHand _ _ _
  · exact referCase_closes inHand _ _ _

theorem completeWork_custodyKept {w : Work} (hwork : s.engine.work = some w) :
    s.CustodyKept (s.completeWork w).1 := by
  unfold completeWork
  split
  · next line hreq =>
    have freed := freeEngine_custody hwork (.inr fun c hc => nomatch hreq.symm.trans hc)
    exact .of_custody ((queue_custody _ _).trans freed)
  · next c hreq =>
    split
    · next hgone => exact .of_custody (freeEngine_custody hwork (.inl hgone))
    · next hkept =>
      have inHand := freeEngine_inHand hwork hreq (Bool.eq_false_iff.mpr hkept)
      split
      · exact inHand.deliver _
      · exact inHand.deliver _
      · exact completeStages_closes inHand w

theorem complete_custodyKept (s : State) : s.CustodyKept s.complete := by
  unfold complete
  split
  · exact .same s
  · next w hwork => exact (settleSelect_custodyKept _ _ _).after (completeWork_custodyKept hwork)

end Sys2Proof.Machine.State
end

section
/-! What the call table, the gates, the tables and the settings keep of the custodies: the pending presentations, cases
and work that they end are answered, and the rest stays where it is held. -/

namespace Sys2Proof.Machine.State

variable {s : State}

/-! ### Requests and events (R174, R185) -/

theorem whenRunning_custodyKept {f : State → State} (h : s.CustodyKept (f s)) : s.CustodyKept (s.whenRunning f) := by
  unfold whenRunning
  split
  · exact h
  · exact .same s

theorem whenRunning_custody {f : State → State} (h : (f s).custody = s.custody) : s.CustodyKept (s.whenRunning f) :=
  whenRunning_custodyKept (.of_custody h)

theorem answer_custody (kind : Nat) (dest : Dest) (a : Act) : (answer kind dest a).custody = a.state.custody := by
  cases dest <;> rfl

theorem request_custodyKept {kind : MsgKind} {dest : Dest} {len : BodyLen} {act : State → Act}
    (h : ∀ s : State, s.CustodyKept (act s).state) : s.CustodyKept (s.request kind dest len act) := by
  have begun : s.CustodyKept s.beginRequest := .of_custody rfl
  refine whenRunning_custodyKept (CustodyKept.after (.of_custody (answer_custody ..)) ?_)
  cases len with
  | wrong => exact begun
  | fits => exact begun.trans (h _)

/-- A request that leaves the custodies as they are. -/
theorem request_custody {kind : MsgKind} {dest : Dest} {len : BodyLen} {act : State → Act}
    (h : ∀ s : State, (act s).state.custody = s.custody) : s.CustodyKept (s.request kind dest len act) :=
  request_custodyKept fun s => .of_custody (h s)

theorem stateMessage_custodyKept {berth vessel : Nat} {accepts : CallState → Bool} {act : Berth → Act}
    (h : ∀ b, s.CustodyKept (act b).state) : s.CustodyKept (s.stateMessage berth vessel accepts act).state := by
  unfold stateMessage
  split
  · exact .same s
  · split
    · exact .same s
    · split
      · exact .same s
      · split
        · exact .same s
        · exact h _

theorem foldl_custodyKept {f : State → Chan → State} (hf : ∀ (s : State) (c : Chan), s.CustodyKept (f s c)) (cs : List Chan)
    (s : State) :
    s.CustodyKept (cs.foldl f s) := by
  induction cs generalizing s with
  | nil => exact .same s
  | cons c cs ih => exact (hf s c).trans (ih _)

variable (s)

/-! ### Call records (R7 to R17, R29, R165) -/

theorem queueIf_custody (p : Bool) (n : Notice) : (s.queueIf p n).custody = s.custody := by
  obtain ⟨q, h⟩ := queueIf_frame s p n
  rw [h]
  rfl

theorem queueCallState_custody (b : Berth) (vessel : Nat) (left : CallState) (cause : CallCause) :
    (s.queueCallState b vessel left cause).custody = s.custody := queue_custody s _

theorem markIfOver_custody (b : Berth) (cause : MarkCause) : (s.markIfOver b cause).custody = s.custody := by
  obtain ⟨k, q, h⟩ := markIfOver_frame s b cause
  rw [h]
  rfl

theorem refuseOfBerth_custodyKept (b : Berth) (code : VerdictCode) (p : Chan → Bool) :
    s.CustodyKept (s.refuseOfBerth b code p) := by
  refine foldl_custodyKept (fun t c => ?_) Chan.all s
  split
  · exact refusePending_custodyKept t c code
  · exact .same t

/-- The end mark stands beside the work's presentation, which the engine still holds (R104). -/
theorem markEnded_custody (b : Berth) (reason : EndReason) : (s.markEnded b reason).custody = s.custody := by
  unfold markEnded
  split
  · rfl
  · next w hwork =>
    split
    · rfl
    · split
      · refine funext fun d => custody_eq_of_holders rfl ?_
        have hholders := setWork_holders s (some { w with
          mark := if reason = .egress then EndMark.egress else EndMark.notBoarding }) d
        have hworks : s.worksFor d = (decide (w.requester = .channel d) && !w.withdrawn) := by rw [worksFor, hwork]
        rw [hworks] at hholders
        exact Nat.add_right_cancel hholders
      · rfl

theorem endCall_custodyKept (b : Berth) (reason : EndReason) (cause : CallCause) :
    s.CustodyKept (s.endCall b reason cause) := by
  have recorded : (s.recordEnd b reason cause).custody = s.custody := queueCallState_custody _ b _ _ _
  have cleared : ((s.recordEnd b reason cause).endCallClaims b).custody = s.custody := by
    obtain ⟨k, l, j, h⟩ := endCallClaims_frame (s.recordEnd b reason cause) b
    rw [h, ← recorded]
    rfl
  exact (resolveSlotOfBerth_custodyKept _ b .s1 _).after <| (resolveSlotOfBerth_custodyKept _ b .s0 _).after <|
    (CustodyKept.of_custody (markEnded_custody _ b reason)).after <|
    (refuseOfBerth_custodyKept _ b _ _).after (.of_custody cleared)

theorem enterLastCall_custodyKept (b : Berth) (cause : CallCause) : s.CustodyKept (s.enterLastCall b cause) := by
  rw [enterLastCall_eq]
  exact (refuseOfBerth_custodyKept _ b _ _).after (.of_custody (queueAll_custody _ _))

theorem actCallOpen_custodyKept (berth vessel line capacity declared dwell : Nat) :
    s.CustodyKept (s.actCallOpen berth vessel line capacity declared dwell).state := by
  unfold actCallOpen
  split
  · exact .same s
  · split
    · exact .same s
    · split
      · exact .same s
      · split
        · exact .same s
        · dsimp only [enteredReply, Act.ok]
          exact (settle_custodyKept _ _ _).after <| .of_custody <|
            (queueIf_custody _ _ _).trans (queueCallState_custody _ _ _ _ _)

theorem actBoardStart_custodyKept (berth vessel : Nat) : s.CustodyKept (s.actBoardStart berth vessel).state := by
  refine stateMessage_custodyKept fun b => ?_
  dsimp only [enteredReply, Act.ok]
  rw [startBoarding_eq]
  exact (settle_custodyKept _ _ _).after (.of_custody (queueAll_custody _ _))

theorem actLastCall_custodyKept (berth vessel : Nat) : s.CustodyKept (s.actLastCall berth vessel).state := by
  refine stateMessage_custodyKept fun b => ?_
  dsimp only [enteredReply, Act.ok]
  exact (settle_custodyKept _ _ _).after (enterLastCall_custodyKept s b _)

theorem actEnd_custodyKept (reason : EndReason) (berth vessel : Nat) :
    s.CustodyKept (s.actEnd reason berth vessel).state := by
  refine stateMessage_custodyKept fun b => ?_
  dsimp only [enteredReply, Act.ok]
  exact (settle_custodyKept _ _ _).after (endCall_custodyKept s b _ _)

theorem actCallCollect_custodyKept (berth vessel : Nat) : s.CustodyKept (s.actCallCollect berth vessel).state := by
  refine stateMessage_custodyKept fun b => ?_
  dsimp only [Act.ok]
  rw [collected_eq]
  exact (settle_custodyKept _ _ _).after (.of_custody (queueAll_custody _ _))

theorem actAboardAdjust_custodyKept (berth vessel : Nat) (delta : Int) :
    s.CustodyKept (s.actAboardAdjust berth vessel delta).state := by
  unfold actAboardAdjust
  split
  · exact .same s
  · refine stateMessage_custodyKept fun b => ?_
    dsimp only [Act.ok]
    rw [adjusted_eq]
    exact (settle_custodyKept _ _ _).after (.of_custody (queueAll_custody _ _))

/-! ### Gates (R44 to R51, R57 to R65) -/

theorem setService_custodyKept (c : Chan) (flag : ServiceFlag) : s.CustodyKept (s.setService c flag) := by
  unfold setService
  split
  · exact .same s
  · have set : s.CustodyKept (s.setChan c { s.chan c with service := flag }) := .of_custody rfl
    refine (settle_custodyKept _ _ _).after ?_
    split
    · exact set.trans (refusePending_custodyKept _ c _)
    · exact set

theorem actChannelService_custodyKept (channel : Nat) (value : Option ServiceFlag) :
    s.CustodyKept (s.actChannelService channel value).state := by
  unfold actChannelService
  split
  · dsimp only [Act.ok]
    exact setService_custodyKept s _ _
  · exact .same s

theorem releaseSeat_custodyKept (c : Chan) (b : Berth) (force : Bool) : s.CustodyKept (s.releaseSeat c b force) := by
  have held := requestSeats_custody s (staffRequest c force)
  unfold releaseSeat
  dsimp only
  refine (settle_custodyKept _ _ _).after (.of_custody ?_)
  split
  · exact (markIfOver_custody _ b _).trans held
  · exact held

theorem actChannelRelease_custodyKept (channel : Nat) (force : Option Bool) :
    s.CustodyKept (s.actChannelRelease channel force).state := by
  unfold actChannelRelease
  split
  · split
    · exact .same s
    · split
      · exact .same s
      · dsimp only [Act.ok]
        exact releaseSeat_custodyKept s _ _ _
  · exact .same s

theorem actChannelRestore_custodyKept (target : RestoreTarget) :
    s.CustodyKept (s.actChannelRestore target).state := by
  unfold actChannelRestore
  split
  · split
    · exact .same s
    · split
      · exact .same s
      · dsimp only [Act.ok]
        split
        · exact (settle_custodyKept _ _ _).after (.of_custody rfl)
        · exact .same s
  · split
    · exact .same s
    · have unlatched (t : State) (c : Chan) : t.CustodyKept (t.unlatch c) := .of_custody rfl
      dsimp only [Act.ok]
      exact (settle_custodyKept _ _ _).after (foldl_custodyKept unlatched _ s)

theorem lapseHead_custody (c : Chan) : (s.lapseHead c).custody = s.custody := by
  obtain ⟨k, l, j, h⟩ := lapseHead_frame s c
  rw [h]
  rfl

theorem windowRunsOut_custodyKept (c : Chan) : s.CustodyKept (s.windowRunsOut c) := by
  unfold windowRunsOut
  split
  · exact (settleSelect_custodyKept _ _ _).after (.of_custody (lapseHead_custody s c))
  · exact .same s

theorem endClaims_custody (c : Chan) (p : Claim → Bool) : (s.endClaims c p).custody = s.custody := by
  obtain ⟨k, l, j, h⟩ := endClaims_frame s c p
  rw [h]
  rfl

theorem suspensionRunsOut_custodyKept (c : Chan) : s.CustodyKept (s.suspensionRunsOut c) := by
  unfold suspensionRunsOut
  split
  · exact (settleSelect_custodyKept _ _ _).after (.of_custody (endClaims_custody _ c _))
  · exact .same s

theorem obstructionRunsOut_custody (c : Chan) : (s.obstructionRunsOut c).custody = s.custody := by
  unfold obstructionRunsOut
  split
  · rfl
  · exact queue_custody _ _

theorem consumeSeat_custody (c : Chan) (b : Berth) (k : Claim) (ks : List Claim) :
    (s.consumeSeat c b k ks).custody = s.custody := by
  obtain ⟨l, h⟩ := modClaimAllot_frame
    (s.setCall b { s.call b with boarded := (s.call b).boarded.count k.kind }) k Allotment.pass
  unfold consumeSeat
  dsimp only
  rw [h]
  split
  · rfl
  · obtain ⟨j, hj⟩ := recordPassed_frame
      (({ s.setCall b { s.call b with boarded := (s.call b).boarded.count k.kind } with
        tables := { s.tables with allot := l } } : State).setClaims c
          { s.claimsOf c with live := promote (s.windowOf c) ks })
      { k with passed := k.passed + 1, window := s.windowOf c }
    exact (congrArg custody hj).trans rfl

theorem countPassage_custody (c : Chan) (b : Berth) (d : Direction) : (s.countPassage c b d).custody = s.custody := by
  unfold countPassage
  split
  · unfold countOutward
    dsimp only
    split <;> rfl
  · split
    · exact (markIfOver_custody _ b _).trans (queue_custody (s.setCall b _) _)
    · exact consumeSeat_custody s c b _ _

theorem routePassage_custody (c : Chan) (d : Direction) : (s.routePassage c d).custody = s.custody := by
  unfold routePassage
  split
  · rfl
  · dsimp only
    split
    · rfl
    · split
      · exact countPassage_custody _ c _ d
      · rfl

theorem beamMoves_custodyKept (c : Chan) (beam : Beam) (broken : Bool) : s.CustodyKept (s.beamMoves c beam broken) := by
  unfold beamMoves
  split
  · exact .same s
  · dsimp only
    refine (settleSelect_custodyKept _ _ _).after (.of_custody ?_)
    split
    · rfl
    · exact routePassage_custody _ c _

/-! ### Egress (R164 to R169) -/

theorem startEgress_custody (cause : EgressCause) : (s.startEgress cause).custody = s.custody := by
  obtain ⟨e, q, h⟩ := startEgress_frame s cause
  rw [h]
  rfl

theorem endByEgress_custodyKept (b : Berth) : s.CustodyKept (s.endByEgress b) := by
  unfold endByEgress
  split
  · exact endCall_custodyKept s b _ _
  · exact .same s

theorem enterEgress_custodyKept (cause : EgressCause) : s.CustodyKept (s.enterEgress cause) :=
  (CustodyKept.of_custody (refuseDesk_custody _ _)).after <| (resolveSlot_custodyKept _ .s1 _).after <|
    (resolveSlot_custodyKept _ .s0 _).after <| (endByEgress_custodyKept _ .b1).after <|
    (endByEgress_custodyKept _ .b0).after (.of_custody (startEgress_custody s cause))

theorem leaveEgress_custody : s.leaveEgress.custody = s.custody := by
  obtain ⟨e, q, h⟩ := leaveEgress_frame s
  rw [h]
  rfl

theorem actEgressEnter_custodyKept : s.CustodyKept s.actEgressEnter.state := by
  unfold actEgressEnter
  split
  · exact .of_custody rfl
  · dsimp only [Act.ok]
    exact (settle_custodyKept _ _ _).after (enterEgress_custodyKept s _)

theorem actEgressClear_custodyKept : s.CustodyKept s.actEgressClear.state := by
  unfold actEgressClear
  split
  · exact .same s
  · split
    · exact .same s
    · split
      · exact .of_custody rfl
      · dsimp only [Act.ok]
        exact (settle_custodyKept _ _ _).after (.of_custody (leaveEgress_custody s))

theorem evacuateOn_custodyKept : s.CustodyKept s.evacuateOn := by
  unfold evacuateOn
  dsimp only
  split
  · exact .of_custody rfl
  · exact (settle_custodyKept _ _ _).after ((enterEgress_custodyKept _ _).after (.of_custody rfl))

theorem holdRunsOut_custodyKept : s.CustodyKept s.holdRunsOut := by
  unfold holdRunsOut
  split
  · exact .same s
  · split
    · exact (settle_custodyKept _ _ _).after (.of_custody (leaveEgress_custody s))
    · exact .of_custody rfl

/-! ### The desk and the settings (R89, R90, R99, R181 to R184) -/

theorem arriveDesk_custody (card : Card) (line : Nat) : (s.arriveDesk card line).custody = s.custody := by
  unfold arriveDesk
  dsimp only
  split
  · exact refuseDesk_custody _ _
  · split
    · exact refuseDesk_custody _ _
    · rfl

theorem actDeskCheck_custodyKept (line : Nat) (card : List Octet) :
    s.CustodyKept (s.actDeskCheck line card).state := by
  unfold actDeskCheck
  split
  · exact .same s
  · split
    · exact .same s
    · split
      · exact .same s
      · dsimp only [Act.ok]
        exact (settleSelect_custodyKept _ _ _).after (.of_custody (arriveDesk_custody s _ _))

theorem sweepSettings_custodyKept (old : Settings) (cs : List Chan) : s.CustodyKept (s.sweepSettings old cs) := by
  refine foldl_custodyKept (fun t c => ?_) cs s
  unfold refuseWith
  split
  · exact refusePending_custodyKept t c _
  · exact .same t

theorem refuseBySettings_custodyKept (old : Settings) : s.CustodyKept (s.refuseBySettings old) := by
  rw [refuseBySettings_eq]
  split
  · exact (CustodyKept.of_custody (refuseDesk_custody _ _)).after (sweepSettings_custodyKept s old _)
  · exact sweepSettings_custodyKept s old _

theorem applySettings_custodyKept (new : Settings) : s.CustodyKept (s.applySettings new) := by
  unfold applySettings
  split
  · exact .same s
  · exact (settle_custodyKept _ _ _).after ((refuseBySettings_custodyKept _ _).after (.of_custody rfl))

theorem actSettingsSet_custodyKept (number : Nat) (value : SettingValue) :
    s.CustodyKept (s.actSettingsSet number value).state := by
  unfold actSettingsSet
  split
  · exact .same s
  · split
    · split
      · exact .same s
      · exact applySettings_custodyKept s _
    · exact .same s

theorem actSettingsReload_custodyKept : s.CustodyKept s.actSettingsReload.state := by
  unfold actSettingsReload
  split
  · exact .same s
  · split
    · exact (applySettings_custodyKept (s.setFault false) _).after (.of_custody rfl)
    · exact (applySettings_custodyKept (s.setFault true) _).after (.of_custody rfl)

theorem actSettingsDefault_custodyKept : s.CustodyKept s.actSettingsDefault.state := by
  unfold actSettingsDefault
  split
  · exact .same s
  · exact applySettings_custodyKept s _

theorem actSettingsGet_custody (number : Nat) : (s.actSettingsGet number).state.custody = s.custody := by
  unfold actSettingsGet
  split
  · rfl
  · split <;> rfl

theorem actSettingsStore_custody : s.actSettingsStore.state.custody = s.custody := by
  unfold actSettingsStore
  split
  · rfl
  · split <;> rfl

theorem endStore_custody (readBack : StoredImage) : (s.endStore readBack).custody = s.custody := by
  unfold endStore
  split
  · rfl
  · exact queue_custody _ _

/-! ### The bus, the clock and the tables (R139 to R150, R161, R162, R178) -/

theorem actRestart_custody : s.actRestart.state.custody = s.custody := by
  unfold actRestart
  split <;> rfl

theorem activatePending_custody (cause : TariffCause) : (s.activatePending cause).custody = s.custody := by
  unfold activatePending
  split
  · split
    · exact queue_custody _ _
    · rfl
  · rfl

theorem actClockSet_custody (day secs : Nat) : (s.actClockSet day secs).state.custody = s.custody := by
  unfold actClockSet
  split
  · rfl
  · exact activatePending_custody _ _

theorem actLoadBegin_custody (kind : Option LoadKind) (version count : Nat) (crc : BitVec 16) :
    (s.actLoadBegin kind version count crc).state.custody = s.custody := by
  unfold actLoadBegin
  split
  · rfl
  · split
    · rfl
    · dsimp only
      split
      · rfl
      · split <;> rfl

theorem actLoadSegment_custody (len : BodyLen) (index : Nat) (entries : List LoadEntry) :
    (s.actLoadSegment len index entries).state.custody = s.custody := by
  unfold actLoadSegment
  split
  · rfl
  · split
    · rfl
    · split
      · rfl
      · split
        · rfl
        · dsimp only
          split <;> rfl

theorem putTable_custody (l : Load) : (s.putTable l).1.custody = s.custody := by
  unfold putTable
  dsimp only
  split
  · rfl
  · rfl
  · split
    · exact queue_custody _ _
    · rfl

theorem actLoadCommit_custody : s.actLoadCommit.state.custody = s.custody := by
  unfold actLoadCommit
  split
  · rfl
  · split
    · rfl
    · exact putTable_custody s _

theorem actLoadAbort_custody : s.actLoadAbort.state.custody = s.custody := by
  unfold actLoadAbort
  split <;> rfl

theorem loadRunsOut_custody : s.loadRunsOut.custody = s.custody := by
  unfold loadRunsOut
  split
  · rfl
  · split
    · exact queue_custody _ _
    · rfl

theorem actDenyEdit_custody (len : BodyLen) (op : Option DenyOp) (items : List DenyItem) :
    (s.actDenyEdit len op items).state.custody = s.custody := by
  unfold actDenyEdit
  split
  · rfl
  · split
    · rfl
    · split
      · rfl
      · split
        · dsimp only
          split <;> rfl
        · rfl

theorem actTableQuery_custody (subject : Subject) : (s.actTableQuery subject).state.custody = s.custody := by
  unfold actTableQuery
  split
  · rfl
  · rfl
  · split <;> rfl
  · split <;> rfl
  · rfl
  · rfl

theorem actAllotSet_custody (token : CardId) (line total block : Nat) (expiry : Option ClockTime) :
    (s.actAllotSet token line total block expiry).state.custody = s.custody := by
  unfold actAllotSet
  split
  · rfl
  · split <;> split <;> rfl

theorem actAllotRemove_custody (token : CardId) : (s.actAllotRemove token).state.custody = s.custody := by
  unfold actAllotRemove
  split
  · rfl
  · split
    · rfl
    · split <;> rfl

theorem actAllotQuery_custody (key : AllotKey) : (s.actAllotQuery key).state.custody = s.custody := by
  unfold actAllotQuery
  split <;> split <;> rfl

theorem queueReport_custody (b : Berth) : (s.queueReport b).custody = s.custody := queueIf_custody s _ _

/-- Held referrals that change, but not in their channels. -/
theorem custody_of_slots {t : State} {f : Referral → Referral} (hf : ∀ r, (f r).channel = r.channel)
    (hslot : ∀ i, t.slot i = (s.slot i).map f) (hplaces : t.arbiter = s.arbiter) (hwork : t.engine.work = s.engine.work)
    (hport : ∀ c, (t.port c).line = (s.port c).line ∧ (t.port c).outstanding.isSome = (s.port c).outstanding.isSome ∧
      (t.port c).awaited.isSome = (s.port c).awaited.isSome) : t.custody = s.custody := by
  funext c
  have hslotFor (i : Slot) : t.slotFor c i = s.slotFor c i := by
    rw [slotFor, slotFor, hslot]
    cases s.slot i with
    | none => rfl
    | some r => exact congrArg (decide <| · = c) (hf r)
  have hworksFor : t.worksFor c = s.worksFor c := by rw [worksFor, worksFor, hwork]
  obtain ⟨hline, hout, hawaited⟩ := hport c
  simp only [custody, holders, hline, hout, hawaited, hplaces, hworksFor, hslotFor]

/-- A POLL marks the referrals held as delivered (R152). -/
theorem actPoll_custody : s.actPoll.state.custody = s.custody :=
  custody_of_slots (f := fun r => { r with delivered := true }) s (fun _ => rfl) (fun i => by cases i <;> rfl) rfl rfl
    fun _ => ⟨rfl, rfl, rfl⟩

theorem tick_custody : s.tick.custody = s.custody := by
  refine custody_of_slots (f := Referral.later) s (fun _ => rfl) (fun i => by cases i <;> rfl) rfl rfl fun c => ?_
  have hport : s.tick.port c = (s.port c).later := PerChan.get_of ..
  rw [hport]
  exact ⟨rfl, rfl, Option.isSome_map⟩

end Sys2Proof.Machine.State
end

section
/-! What the reader lines, the start-up, every command and every step keep of the custodies. -/

namespace Sys2Proof.Machine

namespace State

variable {s : State} {c : Chan}

/-! ### Frames of a reader (R76 to R86) -/

/-- A line that comes out of DOWN holds nothing yet (R79). -/
theorem startAttach_custodyKept (hline : (s.port c).line = .down) : s.CustodyKept (s.startAttach c) := by
  refine CustodyKept.after (.of_custody (attachAnew_custody _ c)) (setPort_custodyKept ?_)
  refine Custody.line_kept (k := s.custody c) (fun hup => ?_) .attaching
  cases hline.symm.trans hup

theorem heard_custody (s : State) (c : Chan) : (s.setPort c (heard (s.port c))).custody = s.custody :=
  setPort_custody_same rfl

/-- A frame of a reader that is heard keeps the custodies where what it carries does. -/
theorem hearReader_custodyKept {take : State → State} (h : ∀ s : State, s.CustodyKept (take s)) :
    s.CustodyKept (s.hearReader c take) := by
  have heard : s.CustodyKept (s.setPort c (heard (s.port c))) := .of_custody (heard_custody s c)
  unfold hearReader
  split
  · next hline => exact startAttach_custodyKept hline
  · exact heard.trans (h _)
  · exact heard.trans (h _)

theorem whenUp_custodyKept {take : State → State} (h : (s.port c).line = .up → s.CustodyKept (take s)) :
    s.CustodyKept (s.whenUp c take) := by
  unfold whenUp
  split
  · next hup => exact h hup
  · exact .same s
  · exact .same s

/-- The line that a reader's end leaves in any state, with neither a presentation nor an awaited write (R80, R81). -/
theorem ended_custodyKept {t : State} {line : LineState}
    (h : ∀ d, t.custody d = if d = c then { (s.custody c).ended with line := line } else s.custody d) :
    s.CustodyKept t := by
  refine .of_one (c := c) (fun d hd => (h d).trans (if_neg hd)) ?_
  rw [h, if_pos rfl]
  exact Custody.ended_kept _ line

theorem lineUp_custodyKept (s : State) (c : Chan) : s.CustodyKept (s.lineUp c) :=
  (settle_custodyKept _ _ _).after (setPort_custodyKept (Custody.up_kept (s.custody c)))

theorem leaveUp_custody (s : State) (c : Chan) (line : LineState) (d : Chan) :
    (s.leaveUp c line).custody d = if d = c then { s.custody c with line := line } else s.custody d :=
  setPort_custody s c _ d

theorem reattach_custodyKept (s : State) (c : Chan) : s.CustodyKept (s.reattach c) := by
  refine (select_custodyKept _).after <| (CustodyKept.of_custody (attachAnew_custody _ c)).after <|
    (settle_custodyKept _ _ _).after <| ended_custodyKept (c := c) (line := .attaching) fun d => ?_
  rw [leaveUp_custody, ended_custody, ended_custody, if_pos rfl]
  split <;> rfl

theorem takeReady_custodyKept (s : State) (c : Chan) : s.CustodyKept (s.takeReady c) := by
  unfold takeReady
  split
  · exact lineUp_custodyKept s c
  · exact reattach_custodyKept s c
  · exact .same s

theorem takeWithdraw_custodyKept (s : State) (c : Chan) (id : CardId) : s.CustodyKept (s.takeWithdraw c id) := by
  unfold takeWithdraw
  split
  · exact .same s
  · split
    · exact withdrawPresentation_custodyKept s c
    · exact .same s

theorem writeDone_custody (s : State) (c : Chan) (tag : Nat) : (s.writeDone c tag).custody = s.custody := by
  obtain ⟨k, n, j, h⟩ := writeDone_frame s c tag
  rw [h]
  rfl

theorem writeFailed_custody (s : State) (c : Chan) (tag : Nat) : (s.writeFailed c tag).custody = s.custody := by
  obtain ⟨k, l, h⟩ := writeFailed_frame s c tag
  rw [h]
  rfl

theorem takeWriteResult_custodyKept (s : State) (c : Chan) (tag : Nat) (ok : Bool) :
    s.CustodyKept (s.takeWriteResult c tag ok) := by
  have ended : s.CustodyKept (s.setPort c { s.port c with awaited := none }) :=
    setPort_custodyKept (Custody.unawaited_kept (s.custody c))
  unfold takeWriteResult
  split
  · exact .same s
  · split
    · exact .same s
    · dsimp only
      refine (settleSelect_custodyKept _ _ _).after (CustodyKept.after (.of_custody ?_) ended)
      split
      · exact writeDone_custody _ c tag
      · exact writeFailed_custody _ c tag

/-! ### Frames going out and the timers of a port (R78, R81, R82, R86) -/

theorem frameSent_custody (s : State) (c : Chan) : (s.frameSent c).custody = s.custody := by
  unfold frameSent
  split
  · rfl
  · split
    · exact setPort_custody_same rfl
    · exact (startRecord_custody _ c _).trans (setPort_custody_same rfl)

theorem attachRunsOut_custody (s : State) (c : Chan) : (s.attachRunsOut c).custody = s.custody := by
  unfold attachRunsOut
  split
  · exact attachAnew_custody s c
  · rfl

theorem lineDown_custody (s : State) (c d : Chan) :
    (s.lineDown c).custody d = if d = c then { s.custody c with line := .down } else s.custody d := by
  unfold lineDown
  dsimp only
  split <;> exact setPort_custody s c _ d

theorem inactivityRunsOut_custodyKept (s : State) (c : Chan) : s.CustodyKept (s.inactivityRunsOut c) := by
  unfold inactivityRunsOut
  dsimp only
  split
  · exact .same s
  · refine (settleSelect_custodyKept _ _ _).after (ended_custodyKept (c := c) (line := .down) fun d => ?_)
    rw [ended_custody, lineDown_custody, lineDown_custody, if_pos rfl, queue_custody, Custody.ended_line]
    split <;> rfl

theorem writeRunsOut_custodyKept (s : State) (c : Chan) : s.CustodyKept (s.writeRunsOut c) := by
  unfold writeRunsOut
  split
  · exact .same s
  · split
    · exact (settleSelect_custodyKept _ _ _).after (endWriteUnknown_custodyKept s c)
    · exact .same s

/-! ### Start-up, power and the passing of time (R75, R185) -/

/-- A start-up leaves every line DOWN, with no presentation, no awaited write and nothing held. -/
theorem startUp_custody (s : State) (cause : StartCause) (found : Found) (c : Chan) :
    (s.startUp cause found).custody c = ⟨.down, false, false, 0⟩ := by
  obtain ⟨k, hk⟩ := startUp_frame (s := s) (cause := cause) (found := found)
  obtain ⟨e, q, hq⟩ := started_frame s cause found
  rw [hk, hq]
  cases c <;> rfl

theorem startUp_custodyKept (s : State) (cause : StartCause) (found : Found) :
    s.CustodyKept (s.startUp cause found) := by
  intro c
  rw [startUp_custody]
  exact ⟨fun _ => rfl, fun _ => ⟨nofun, nofun⟩⟩

theorem goInactive_custody (s : State) : s.goInactive.custody = s.custody := by
  refine custody_of_ports rfl fun c => ?_
  have hport : s.goInactive.port c = { s.port c with receiver := .hunting false, sending := none, waiting := [] } :=
    PerChan.get_of ..
  rw [hport]
  exact ⟨rfl, rfl, rfl⟩

theorem idle_custody (s : State) : s.idle.custody = s.custody := by
  unfold idle
  split
  · exact tick_custody s
  · rfl

end State

open State

/-! ### Every command, and every step -/

/-- Every command keeps the custodies. -/
theorem exec_custodyKept {i : Instr} {s t : State} (h : exec i s = .next t) : s.CustodyKept t := by
  cases i <;> obtain rfl := Host.Outcome.next.inj h
  case powerOn found => exact startUp_custodyKept s _ found
  case supplyDip => exact whenRunning_custody (goInactive_custody s)
  case supplyRecovered found =>
    split
    · exact startUp_custodyKept s _ found
    · exact .same s
  case commandStartUp found =>
    refine whenRunning_custodyKept ?_
    split
    · exact startUp_custodyKept s _ found
    · exact .same s
  case poll => exact request_custody actPoll_custody
  case status => exact request_custody fun _ => rfl
  case statusClear => exact request_custody fun _ => rfl
  case restart => exact request_custody actRestart_custody
  case unknownKind => exact whenRunning_custody rfl
  case broadcastIgnored => exact whenRunning_custody rfl
  case busFrameDiscarded why => exact whenRunning_custody (by cases why <;> rfl)
  case clockSet day secs => exact request_custody fun s => actClockSet_custody s day secs
  case clockSecond =>
    refine whenRunning_custody ?_
    split
    · rfl
    · exact activatePending_custody _ _
  case callOpen => exact request_custodyKept fun s => actCallOpen_custodyKept s _ _ _ _ _ _
  case boardStart => exact request_custodyKept fun s => actBoardStart_custodyKept s _ _
  case lastCall => exact request_custodyKept fun s => actLastCall_custodyKept s _ _
  case castOff => exact request_custodyKept fun s => actEnd_custodyKept s _ _ _
  case callCancel => exact request_custodyKept fun s => actEnd_custodyKept s _ _ _
  case callQuery => exact request_custody fun s => by unfold actCallQuery; split <;> rfl
  case callCollect => exact request_custodyKept fun s => actCallCollect_custodyKept s _ _
  case aboardAdjust => exact request_custodyKept fun s => actAboardAdjust_custodyKept s _ _ _
  case channelQuery => exact request_custody fun s => by unfold actChannelQuery; split <;> rfl
  case channelService => exact request_custodyKept fun s => actChannelService_custodyKept s _ _
  case channelRelease => exact request_custodyKept fun s => actChannelRelease_custodyKept s _ _
  case channelRestore => exact request_custodyKept fun s => actChannelRestore_custodyKept s _
  case egressEnter => exact request_custodyKept actEgressEnter_custodyKept
  case egressClear => exact request_custodyKept actEgressClear_custodyKept
  case loadBegin => exact request_custody fun s => actLoadBegin_custody s _ _ _ _
  case loadSegment => exact request_custody fun s => actLoadSegment_custody s _ _ _
  case loadCommit => exact request_custody actLoadCommit_custody
  case loadAbort => exact request_custody actLoadAbort_custody
  case denyEdit => exact request_custody fun s => actDenyEdit_custody s _ _ _
  case tableQuery => exact request_custody fun s => actTableQuery_custody s _
  case allotSet => exact request_custody fun s => actAllotSet_custody s _ _ _ _ _
  case allotRemove => exact request_custody fun s => actAllotRemove_custody s _
  case allotQuery => exact request_custody fun s => actAllotQuery_custody s _
  case referAnswer => exact request_custodyKept fun s => actReferAnswer_custodyKept s _ _ _ _
  case deskCheck => exact request_custodyKept fun s => actDeskCheck_custodyKept s _ _
  case settingsGet => exact request_custody fun s => actSettingsGet_custody s _
  case settingsSet => exact request_custodyKept fun s => actSettingsSet_custodyKept s _ _
  case settingsStore => exact request_custody actSettingsStore_custody
  case storeWriteEnd => exact whenRunning_custody (endStore_custody s _)
  case settingsReload => exact request_custodyKept actSettingsReload_custodyKept
  case settingsDefault => exact request_custodyKept actSettingsDefault_custodyKept
  case present c body =>
    refine whenRunning_custodyKept (hearReader_custodyKept fun u => whenUp_custodyKept fun hup => ?_)
    split
    · exact .same u
    · exact takePresent_custodyKept hup _
  case withdraw c body =>
    refine whenRunning_custodyKept (hearReader_custodyKept fun u => whenUp_custodyKept fun _ => ?_)
    split
    · exact .same u
    · exact takeWithdraw_custodyKept u c _
  case writeResult c body =>
    refine whenRunning_custodyKept (hearReader_custodyKept fun u => whenUp_custodyKept fun _ => ?_)
    split
    · exact .same u
    · exact takeWriteResult_custodyKept u c _ _
  case alive c => exact whenRunning_custodyKept (hearReader_custodyKept .same)
  case ready c => exact whenRunning_custodyKept (hearReader_custodyKept fun u => takeReady_custodyKept u c)
  case readerFrameDiscarded c why =>
    refine whenRunning_custodyKept ?_
    cases why with
    | damaged => exact .of_custody (setPort_custody_same rfl)
    | wrongKind => exact hearReader_custodyKept .same
    | malformed => exact hearReader_custodyKept .same
  case readerFrameSent c => exact whenRunning_custody (frameSent_custody s c)
  case attachTimerExpiry c => exact whenRunning_custody (attachRunsOut_custody s c)
  case readerInactivityExpiry c => exact whenRunning_custodyKept (inactivityRunsOut_custodyKept s c)
  case writeTimerExpiry c => exact whenRunning_custodyKept (writeRunsOut_custodyKept s c)
  case validationCompletion => exact whenRunning_custodyKept (complete_custodyKept s)
  case referralTimerExpiry i => exact whenRunning_custodyKept (referralRunsOut_custodyKept s i)
  case supervisionTimerExpiry => exact whenRunning_custodyKept (supervisionRunsOut_custodyKept s)
  case loadInactivityExpiry => exact whenRunning_custody (loadRunsOut_custody s)
  case dwellTimerExpiry b =>
    refine whenRunning_custodyKept ?_
    split
    · exact (settle_custodyKept _ _ _).after (enterLastCall_custodyKept s b _)
    · exact .same s
  case lastCallTimerExpiry b =>
    refine whenRunning_custodyKept ?_
    split
    · exact (settle_custodyKept _ _ _).after (endCall_custodyKept s b _ _)
    · exact .same s
  case reportTimerExpiry =>
    refine whenRunning_custody ?_
    split
    · rfl
    · split
      · rfl
      · exact (queueReport_custody _ .b1).trans (queueReport_custody s .b0)
  case passWindowExpiry c => exact whenRunning_custodyKept (windowRunsOut_custodyKept s c)
  case suspensionTimerExpiry c => exact whenRunning_custodyKept (suspensionRunsOut_custodyKept s c)
  case obstructionTimerExpiry c => exact whenRunning_custody (obstructionRunsOut_custody s c)
  case minimumHoldExpiry => exact whenRunning_custodyKept (holdRunsOut_custodyKept s)
  case beamEvent c beam broken => exact whenRunning_custodyKept (beamMoves_custodyKept s c beam broken)
  case rampUnsafe c => exact whenRunning_custodyKept ((settle_custodyKept _ _ _).after (.of_custody rfl))
  case rampSafe c => exact whenRunning_custodyKept ((settle_custodyKept _ _ _).after (.of_custody rfl))
  case evacuateActive => exact whenRunning_custodyKept (evacuateOn_custodyKept s)
  case evacuateInactive => exact whenRunning_custody rfl
  case busReplySent => exact whenRunning_custody (by split <;> rfl)

/-- Every step keeps the custodies. -/
theorem step_custodyKept {s t : State} (h : step s = .next t) : s.CustodyKept t := by
  unfold step at h
  split at h
  · obtain rfl := Host.Outcome.next.inj h
    exact .of_custody (idle_custody s)
  · next rest _ =>
    have taken : s.CustodyKept { s with pending := rest } := .of_custody rfl
    exact taken.trans (exec_custodyKept h)

end Sys2Proof.Machine

open Sys2Proof.Machine Sys2Proof.Machine.State

/-- Settles O13: a case taken out of its place is answered within its event, or held at one other place. -/
theorem presentationsStayHeldOnce : Obligations.PresentationsStayHeldOnce := fun s t hs h =>
  (heldOnce_iff t).mpr fun c => (step_custodyKept h c).once ((heldOnce_iff s).mp hs c)

/-- Settles O12: a presentation begins on a line that is UP, once the write awaited there has ended, and a write is
awaited where a verdict has answered the presentation. -/
theorem portsStaySound : Obligations.PortsStaySound := fun s t hs h =>
  (portsSound_iff t).mpr fun c => (step_custodyKept h c).sound ((portsSound_iff s).mp hs c)
end

section
/-! Octets of a line and the frames that a receiver makes of them: whole frames are given, bad ones give nothing. -/

namespace Sys2Proof.Machine

/-! ### Octets and numbers (11.7) -/

@[simp] theorem octetsOf_length (n v : Nat) : (octetsOf n v).length = n := by
  induction n generalizing v with
  | zero => rfl
  | succ n ih => rw [octetsOf, List.length_append, ih]; rfl

theorem numberOf_concat (os : List Octet) (o : Octet) : numberOf (os ++ [o]) = numberOf os * 256 + o.toNat := by
  rw [numberOf, List.foldl_append]
  rfl

theorem octetsOf_one (v : Nat) : octetsOf 1 v = [BitVec.ofNat 8 v] := rfl

/-- A number is read back from octets that are wide enough for it. -/
theorem numberOf_octetsOf {n v : Nat} (h : v < 256 ^ n) : numberOf (octetsOf n v) = v := by
  induction n generalizing v with
  | zero => rw [pow_zero, Nat.lt_one_iff] at h; rw [h]; rfl
  | succ n ih =>
    have hhigh : v / 256 < 256 ^ n := Nat.div_lt_of_lt_mul (by rwa [mul_comm, ← pow_succ])
    rw [octetsOf, numberOf_concat, ih hhigh, BitVec.toNat_ofNat]
    exact Nat.div_add_mod' v 256

namespace Receiver

/-! ### Octets at a receiver (R76, R172) -/

theorem takeAll_append (head : Nat) (r : Receiver) (xs ys : List Octet) : takeAll head r (xs ++ ys) =
    ((takeAll head (takeAll head r xs).1 ys).1, (takeAll head r xs).2 ++ (takeAll head (takeAll head r xs).1 ys).2) := by
  induction xs generalizing r with
  | nil => rfl
  | cons x xs ih =>
    rw [List.cons_append, takeAll, takeAll, ih]
    exact congrArg _ (List.append_assoc ..).symm

/-- The sync pair begins a frame, whatever the hunting receiver has just seen. -/
theorem takeAll_sync (head : Nat) (sync : Bool) (os : List Octet) :
    takeAll head (.hunting sync) (syncPair ++ os) = takeAll head (.receiving []) os := by
  cases sync <;> rfl

/-- Octets that may be all but the last of a frame with `n` octets of body. -/
structure Begins (head n : Nat) (got : List Octet) : Prop where
  length : got.length < head + n + 2
  body : head ≤ got.length → numberOf ((got.drop (head - 1)).take 1) = n

variable {head n : Nat} {got os : List Octet}

theorem Begins.of_append (hhead : 0 < head) (h : Begins head n (got ++ os)) : Begins head n got where
  length := by
    have hlength := h.length
    rw [List.length_append] at hlength
    omega
  body hgot := by
    have hbody := h.body (by rw [List.length_append]; omega)
    rwa [List.drop_append_of_le_length (by omega), List.take_append_of_le_length (by rw [List.length_drop]; omega)]
      at hbody

/-- What stands before the last octet of a frame is taken, and nothing given. -/
theorem collect_of_begins (hn : n ≤ Config.maxBody) (h : Begins head n got) :
    collect head got = (.receiving got, none) := by
  unfold collect
  split
  · rfl
  · next hhead =>
    dsimp only
    rw [h.body (Nat.not_lt.mp hhead), if_neg (Nat.not_lt.mpr hn), if_pos h.length]

theorem takeAll_of_begins (hhead : 0 < head) (hn : n ≤ Config.maxBody) (h : Begins head n (got ++ os)) :
    takeAll head (.receiving got) os = (.receiving (got ++ os), []) := by
  induction os generalizing got with
  | nil => rw [List.append_nil]; rfl
  | cons o os ih =>
    rw [List.append_cons] at h ⊢
    have hfirst : take head (.receiving got) false o = (.receiving (got ++ [o]), none) :=
      collect_of_begins hn (h.of_append hhead)
    rw [takeAll, hfirst, ih h]
    rfl

/-- The octet behind such octets decides what they make. -/
theorem takeAll_last (hhead : 0 < head) (hn : n ≤ Config.maxBody) (h : Begins head n got) (o : Octet) :
    takeAll head (.receiving []) (got ++ [o]) =
      ((collect head (got ++ [o])).1, (collect head (got ++ [o])).2.toList) := by
  rw [takeAll_append, takeAll_of_begins (got := []) hhead hn h]
  exact congrArg (Prod.mk _) (List.append_nil _)

/-! ### Frames: an address or none, a kind, a length and a body, and the CRC (R76, R172) -/

variable {g body : List Octet} {length crc : Nat}

/-- The length octet stands behind `g`. -/
theorem lengthOctet (hlength : length < 256) (rest : List Octet) :
    numberOf (((g ++ octetsOf 1 length ++ rest).drop (g.length + 1 - 1)).take 1) = length := by
  rw [Nat.add_sub_cancel, List.append_assoc, List.drop_left, List.take_left' (octetsOf_length 1 length)]
  exact numberOf_octetsOf hlength

/-- The octets of a frame, from behind its sync pair: what the CRC covers is given where the CRC octets match. -/
theorem takeAll_frame (hbody : body.length ≤ Config.maxBody) (hcrc : crc < 65536) :
    takeAll (g.length + 1) (.receiving []) (g ++ octetsOf 1 body.length ++ body ++ octetsOf 2 crc) =
      (.hunting false, if crc16 (g ++ octetsOf 1 body.length ++ body) = BitVec.ofNat 16 crc
        then [g ++ octetsOf 1 body.length ++ body] else []) := by
  have hlength : body.length < 256 := Nat.lt_of_le_of_lt hbody (by decide)
  have hoctet (rest : List Octet) : numberOf (((g ++ octetsOf 1 body.length ++ body ++ rest).drop
      (g.length + 1 - 1)).take 1) = body.length := by
    rw [List.append_assoc _ body]
    exact lengthOctet hlength _
  generalize hcovered : g ++ octetsOf 1 body.length ++ body = covered at hoctet ⊢
  have hsize : covered.length = g.length + 1 + body.length := by
    rw [← hcovered]
    simp only [List.length_append, octetsOf_length]
  have begins : Begins (g.length + 1) body.length (covered ++ octetsOf 1 (crc / 256)) := by
    refine ⟨?_, fun _ => hoctet _⟩
    rw [List.length_append, hsize, octetsOf_length]
    omega
  have hlast : collect (g.length + 1) (covered ++ octetsOf 2 crc) =
      (.hunting false, if crc16 covered = BitVec.ofNat 16 crc then some covered else none) := by
    have hwhole : (covered ++ octetsOf 2 crc).length = g.length + 1 + body.length + 2 := by
      rw [List.length_append, hsize, octetsOf_length]
    unfold collect
    rw [if_neg (by omega), hoctet]
    dsimp only
    rw [if_neg (Nat.not_lt.mpr hbody), if_neg (by omega), List.take_left' hsize, List.drop_left' hsize,
      numberOf_octetsOf hcrc]
    split <;> rfl
  have hoctets : covered ++ octetsOf 2 crc = covered ++ octetsOf 1 (crc / 256) ++ [BitVec.ofNat 8 crc] :=
    (List.append_assoc ..).symm
  rw [hoctets] at hlast ⊢
  rw [takeAll_last (Nat.succ_pos _) hbody begins, hlast]
  split <;> rfl

/-- A length above 250 discards the frame at the length octet. -/
theorem takeAll_tooLong (hlong : Config.maxBody < length) (hlength : length < 256) :
    takeAll (g.length + 1) (.receiving []) (g ++ octetsOf 1 length) = (.hunting false, []) := by
  have begins : Begins (g.length + 1) 0 g := ⟨by omega, fun h => absurd h (by omega)⟩
  have hoctet := lengthOctet (g := g) hlength []
  rw [List.append_nil] at hoctet
  have hlast : collect (g.length + 1) (g ++ octetsOf 1 length) = (.hunting false, none) := by
    unfold collect
    rw [if_neg (by rw [List.length_append, octetsOf_length]; omega), hoctet]
    exact if_pos hlong
  exact (takeAll_last (Nat.succ_pos _) (Nat.zero_le _) begins _).trans (by rw [← octetsOf_one, hlast]; rfl)

/-- A frame with its sync pair and the CRC of its octets is given, and the receiver hunts again. -/
theorem takeAll_goodFrame (sync : Bool) (hbody : body.length ≤ Config.maxBody) :
    takeAll (g.length + 1) (.hunting sync) (syncPair ++ (g ++ octetsOf 1 body.length ++ body) ++
      octetsOf 2 (crc16 (g ++ octetsOf 1 body.length ++ body)).toNat) =
        (.hunting false, [g ++ octetsOf 1 body.length ++ body]) := by
  rw [List.append_assoc, takeAll_sync, takeAll_frame hbody (BitVec.isLt _), if_pos]
  rw [BitVec.ofNat_toNat, BitVec.setWidth_eq]

/-- A frame with other CRC octets gives nothing, and the receiver hunts again. -/
theorem takeAll_badFrame (hbody : body.length ≤ Config.maxBody) (hcrc : crc < 65536)
    (hbad : crc ≠ (crc16 (g ++ octetsOf 1 body.length ++ body)).toNat) :
    takeAll (g.length + 1) (.hunting false) (syncPair ++ (g ++ octetsOf 1 body.length ++ body) ++ octetsOf 2 crc) =
      (.hunting false, []) := by
  rw [List.append_assoc, takeAll_sync, takeAll_frame hbody hcrc, if_neg fun he => hbad ?_]
  rw [he, BitVec.toNat_ofNat]
  exact (Nat.mod_eq_of_lt hcrc).symm

end Receiver

end Sys2Proof.Machine

open Sys2Proof.Machine Sys2Proof.Machine.Receiver

/-- Settles O16: a frame is taken octet by octet up to its last, where its CRC decides; a length above 250 and a gap
discard it before. -/
theorem framesAreReceived : Obligations.FramesAreReceived := by
  refine ⟨fun sync address kind body _ _ hbody => ⟨?_, ?_⟩, fun kind length crc body _ hcrc => ⟨?_, ?_, ?_⟩, ?_⟩
  · exact takeAll_goodFrame (g := octetsOf 1 kind) sync hbody
  · exact takeAll_goodFrame (g := octetsOf 1 address ++ octetsOf 1 kind) sync hbody
  · rintro hbody rfl hbad
    have h := takeAll_badFrame (g := octetsOf 1 kind) hbody hcrc hbad
    simp only [List.append_assoc] at h ⊢
    exact h
  · intro hlong hlength
    rw [List.append_assoc, takeAll_sync]
    exact takeAll_tooLong (g := octetsOf 1 kind) hlong hlength
  · refine fun address _ => ⟨?_, fun hlong hlength => ?_⟩
    · rintro hbody rfl hbad
      have h := takeAll_badFrame (g := octetsOf 1 address ++ octetsOf 1 kind) hbody hcrc hbad
      simp only [List.append_assoc] at h ⊢
      exact h
    · rw [List.append_assoc, List.append_assoc, takeAll_sync, ← List.append_assoc]
      exact takeAll_tooLong (g := octetsOf 1 address ++ octetsOf 1 kind) hlong hlength
  · intro head got o
    by_cases ho : o = 0xA9#8
    · rw [ho]
      rfl
    · rw [decide_eq_false ho]
      exact congrArg (·, none) (if_neg ho)
end
section
/-! The docket of the arbiter: the pending presentations, the work in the engine, and for each channel the number of its
claims and its tally of presentations taken. What a part of an event makes of the docket, until a selection, is one
relation: presentations are refused or withdrawn, and none is added. -/

namespace Sys2Proof.Machine

open Safety

/-- What a selection of the arbiter rests on and what it changes (R91 to R94). -/
structure Docket where
  places : PerChan (Option Pending)
  desk : Option DeskPending
  work : Option Work
  claims : Chan → Nat
  taken : Chan → Nat

namespace State

/-- The docket of a state. -/
def docket (s : State) : Docket where
  places := s.arbiter.places
  desk := s.arbiter.desk
  work := s.engine.work
  claims c := (s.claimsOf c).count
  taken c := (s.chan c).tallies.taken

/-- What a part of an event leaves of the docket, with no presentation taken: each place as it was or empty, and the
engine at the work it had, or at that work withdrawn or marked. -/
structure Thins (s t : State) : Prop where
  place : ∀ c, t.arbiter.places.get c = s.arbiter.places.get c ∨ t.arbiter.places.get c = none
  desk : t.arbiter.desk = s.arbiter.desk ∨ t.arbiter.desk = none
  taken : ∀ c, (t.chan c).tallies.taken = (s.chan c).tallies.taken
  busy : t.engine.work = none ↔ s.engine.work = none
  work : ∀ w, t.engine.work = some w → w.withdrawn = false → w.mark = .none → s.engine.work = some w

/-- A part of an event, which found the part in state `o`, after which no further presentation is eligible: a channel
has fewer claims than before only where nothing of it is pending. -/
structure Waits (o s t : State) : Prop extends s.Thins t where
  room : ClaimsOnBoarding o → ∀ c, t.arbiter.places.get c = none ∨ (s.claimsOf c).count ≤ (t.claimsOf c).count

variable {o s t u : State} {c : Chan}

theorem Thins.trans (h : s.Thins t) (g : t.Thins u) : s.Thins u where
  place c := by
    rcases g.place c with e | e
    · rw [e]
      exact h.place c
    · exact .inr e
  desk := by
    rcases g.desk with e | e
    · rw [e]
      exact h.desk
    · exact .inr e
  taken c := (g.taken c).trans (h.taken c)
  busy := g.busy.trans h.busy
  work w hw hkept hmark := h.work w (g.work w hw hkept hmark) hkept hmark

theorem Thins.empty (h : s.Thins t) (hc : s.arbiter.places.get c = none) : t.arbiter.places.get c = none := by
  rcases h.place c with e | e
  · rw [e, hc]
  · exact e

theorem Waits.trans (h : o.Waits s t) (g : o.Waits t u) : o.Waits s u where
  toThins := h.toThins.trans g.toThins
  room ho c := by
    rcases h.room ho c with e | e
    · exact .inl (g.empty e)
    · exact (g.room ho c).imp_right e.trans

/-- A part of an event after another: the later first, so that what is left to show ends where it begins. -/
theorem Waits.after (g : o.Waits t u) (h : o.Waits s t) : o.Waits s u := h.trans g

theorem Thins.after (g : t.Thins u) (h : s.Thins t) : s.Thins u := h.trans g

theorem Waits.of_docket (h : t.docket = s.docket) : o.Waits s t := by
  have hplaces : t.arbiter.places = s.arbiter.places := congrArg Docket.places h
  have hdesk : t.arbiter.desk = s.arbiter.desk := congrArg Docket.desk h
  have hwork : t.engine.work = s.engine.work := congrArg Docket.work h
  have hclaims (c : Chan) : (t.claimsOf c).count = (s.claimsOf c).count := congrFun (congrArg Docket.claims h) c
  exact ⟨⟨fun c => .inl (by rw [hplaces]), .inl hdesk, fun c => congrFun (congrArg Docket.taken h) c,
    by rw [hwork], fun w hw _ _ => hwork ▸ hw⟩, fun _ c => .inr (hclaims c).ge⟩

theorem Thins.of_docket (h : t.docket = s.docket) : s.Thins t := (Waits.of_docket (o := s) h).toThins

theorem Waits.same (s : State) : o.Waits s s := .of_docket rfl

theorem Thins.same (s : State) : s.Thins s := .of_docket rfl

/-- A part of an event that keeps the arbiter, the channels and the work, whatever becomes of the claims. -/
theorem Thins.of_same (harbiter : t.arbiter = s.arbiter) (hchannels : t.channels = s.channels)
    (hwork : t.engine.work = s.engine.work) : s.Thins t where
  place _ := .inl (by rw [harbiter])
  desk := .inl (by rw [harbiter])
  taken _ := by rw [chan, chan, hchannels]
  busy := by rw [hwork]
  work _ hw _ _ := hwork ▸ hw

theorem foldl_waits {α : Type} {f : State → α → State} (hf : ∀ s x, o.Waits s (f s x)) (xs : List α)
    (s : State) :
    o.Waits s (xs.foldl f s) := by
  induction xs generalizing s with
  | nil => exact .same s
  | cons x xs ih => exact (hf s x).trans (ih _)

/-! ### The elementary changes -/

/-- A channel's state replaced, but not its tally of presentations taken. -/
theorem setChan_docket {k : Channel} (h : k.tallies.taken = (s.chan c).tallies.taken) :
    (s.setChan c k).docket = s.docket := by
  have htaken : (s.setChan c k).docket.taken = s.docket.taken := by
    funext d
    refine (congrArg (·.tallies.taken) (chan_setChan s c d k)).trans ?_
    split
    · next hd => exact hd ▸ h
    · rfl
  exact congrArg (fun n => { s.docket with taken := n }) htaken

theorem setSlot_docket (s : State) (i : Slot) (r : Option Referral) : (s.setSlot i r).docket = s.docket := by
  cases i <;> rfl

theorem emptyPlace_waits (s : State) (c : Chan) : o.Waits s (s.setPlace c none) := by
  have hplace (d : Chan) : (s.setPlace c none).arbiter.places.get d = s.arbiter.places.get d ∨
      (s.setPlace c none).arbiter.places.get d = none := by
    have hget := PerChan.get_set s.arbiter.places c d none
    split at hget
    · exact .inr hget
    · exact .inl hget
  exact ⟨⟨hplace, .inl rfl, fun _ => rfl, .rfl, fun _ hw _ _ => hw⟩, fun _ _ => .inr (Nat.le_refl _)⟩

/-- The work replaced by itself withdrawn or marked. -/
theorem setWork_waits {w x : Work} (hw : s.engine.work = some w)
    (hx : x.withdrawn = false → x.mark = .none → x = w) : o.Waits s (s.setWork (some x)) := by
  refine ⟨⟨fun _ => .inl rfl, .inl rfl, fun _ => rfl, ?_, fun y hy hkept hmark => ?_⟩,
    fun _ _ => .inr (Nat.le_refl _)⟩
  · exact ⟨nofun, fun hnone => nomatch hw.symm.trans hnone⟩
  · obtain rfl := Option.some.inj hy
    rw [hw, hx hkept hmark]

theorem setClaims_thins (s : State) (c : Chan) (x : ChannelClaims) : s.Thins (s.setClaims c x) :=
  .of_same rfl rfl rfl

theorem setClaims_waits {x : ChannelClaims} (h : (s.claimsOf c).count ≤ x.count) : o.Waits s (s.setClaims c x) := by
  refine ⟨setClaims_thins s c x, fun _ d => .inr ?_⟩
  rw [claimsOf_setClaims]
  split
  · next hd => exact hd ▸ h
  · exact Nat.le_refl _

/-! ### Notices, records and verdicts (R82 to R89, R175) -/

theorem queue_docket (s : State) (n : Notice) : (s.queue n).docket = s.docket := by
  rw [queue_eq]
  rfl

theorem queueAll_docket (s : State) (ns : List Notice) : (s.queueAll ns).docket = s.docket := by
  rw [queueAll_eq]
  rfl

theorem queueIf_docket (s : State) (p : Bool) (n : Notice) : (s.queueIf p n).docket = s.docket := by
  obtain ⟨q, h⟩ := queueIf_frame s p n
  rw [h]
  rfl

theorem markIfOver_docket (s : State) (b : Berth) (cause : MarkCause) : (s.markIfOver b cause).docket = s.docket := by
  obtain ⟨k, q, h⟩ := markIfOver_frame s b cause
  rw [h]
  rfl

theorem startRecord_docket (s : State) (c : Chan) (r : ReaderRecord) : (s.startRecord c r).docket = s.docket := by
  unfold startRecord
  split
  · split
    · exact setChan_docket rfl
    · rfl
  · rfl

theorem sendRecord_docket (s : State) (c : Chan) (r : ReaderRecord) : (s.sendRecord c r).docket = s.docket := by
  unfold sendRecord
  split
  · exact startRecord_docket s c r
  · rfl

theorem deliver_docket (s : State) (c : Chan) (v : Verdict) : (s.deliver c v).docket = s.docket := by
  unfold deliver
  split
  · rfl
  · exact sendRecord_docket _ c _

theorem attachAnew_docket (s : State) (c : Chan) : (s.attachAnew c).docket = s.docket :=
  (sendRecord_docket _ c _).trans (setChan_docket rfl)

theorem refusePending_waits (s : State) (c : Chan) (code : VerdictCode) : o.Waits s (s.refusePending c code) := by
  unfold refusePending
  split
  · exact .same s
  · exact (Waits.of_docket (deliver_docket _ c _)).after (emptyPlace_waits s c)

theorem refuseDesk_waits (s : State) (code : VerdictCode) : o.Waits s (s.refuseDesk code) := by
  obtain ⟨ns, h⟩ := refuseDesk_eq s code
  rw [h]
  exact ⟨⟨fun _ => .inl rfl, .inr rfl, fun _ => rfl, .rfl, fun _ hw _ _ => hw⟩, fun _ _ => .inr (Nat.le_refl _)⟩

theorem refuseOfBerth_waits (s : State) (b : Berth) (code : VerdictCode) (p : Chan → Bool) :
    o.Waits s (s.refuseOfBerth b code p) := by
  refine foldl_waits (fun t c => ?_) Chan.all s
  split
  · exact refusePending_waits t c code
  · exact .same t

theorem modClaimAllot_docket (s : State) (k : Claim) (f : Allotment → Allotment) :
    (s.modClaimAllot k f).docket = s.docket := by
  obtain ⟨l, h⟩ := modClaimAllot_frame s k f
  rw [h]
  rfl

/-! ### The end of an event (R21, R55, R71, R96) -/

theorem tellArbiter_waits (old s : State) (c : Chan) : o.Waits s (tellArbiter old s c) := by
  unfold tellArbiter
  split
  · exact .same s
  · split
    · exact .same s
    · exact refusePending_waits s c _

theorem showMode_docket (s : State) (c : Chan) : (s.showMode c).docket = s.docket := by
  unfold showMode
  dsimp only
  split
  · exact (sendRecord_docket _ c _).trans (setChan_docket rfl)
  · rfl

theorem settleChannel_waits (s : State) (c : Chan) : o.Waits s (s.settleChannel c) := by
  have htaken : (s.takeState c).docket = s.docket := setChan_docket rfl
  have hreported : (reportState s (s.takeState c) c).docket = s.docket := by
    obtain ⟨q, h⟩ := reportState_frame s (s.takeState c) c
    rw [h]
    exact htaken
  exact (Waits.of_docket (showMode_docket _ c)).after ((tellArbiter_waits s _ c).after (.of_docket hreported))

theorem settle_waits (before s : State) (after : List Notice) : o.Waits s (settle before s after) := by
  rw [settle_eq]
  exact (settleChannel_waits _ .c3).after <| (settleChannel_waits _ .c2).after <| (settleChannel_waits _ .c1).after <|
    (settleChannel_waits _ .c0).after (.of_docket (queueAll_docket s _))

/-! ### A presentation withdrawn, and an awaited write ended (R84, R86, R103, R157) -/

theorem markWithdrawn_waits (s : State) (c : Chan) : o.Waits s (s.markWithdrawn c) := by
  unfold markWithdrawn
  split
  · exact .same s
  · next w hw =>
    split
    · exact setWork_waits hw fun hkept _ => nomatch hkept
    · exact .same s

theorem dropReferral_docket (s : State) (c : Chan) (i : Slot) : (s.dropReferral c i).docket = s.docket := by
  obtain ⟨x, y, h⟩ := dropReferral_frame s c i
  rw [h]
  rfl

theorem withdrawPresentation_waits (s : State) (c : Chan) : o.Waits s (s.withdrawPresentation c) := by
  unfold withdrawPresentation
  split
  · exact .same s
  · exact (Waits.of_docket (dropReferral_docket _ c .s1)).after <|
      (Waits.of_docket (dropReferral_docket _ c .s0)).after <|
      (markWithdrawn_waits _ c).after <| (emptyPlace_waits _ c).after (.of_docket rfl)

theorem endWriteUnknown_thins (s : State) (c : Chan) : s.Thins (s.endWriteUnknown c) := by
  obtain ⟨p, k, l, j, h⟩ := endWriteUnknown_frame s c
  rw [h]
  exact .of_same rfl rfl rfl

theorem withdrawn_thins (s : State) (c : Chan) : s.Thins ((s.withdrawPresentation c).endWriteUnknown c) :=
  (endWriteUnknown_thins _ c).after (withdrawPresentation_waits (o := s) s c).toThins

/-! ### Cases taken to their verdict (R105, R111, R112, R151 to R157) -/

theorem refuseCase_waits (s : State) (c : Chan) (card : Card) (code : VerdictCode) :
    o.Waits s (s.refuseCase c card code).state := .of_docket (deliver_docket s c _)

/-- A grant adds a claim (R34). -/
theorem enterClaim_waits (s : State) (c : Chan) (k : Claim) : o.Waits s (s.enterClaim c k) := by
  unfold enterClaim
  dsimp only
  refine (Waits.of_docket (modClaimAllot_docket _ k _)).after (setClaims_waits ?_)
  split
  · simp only [ChannelClaims.count, List.length_append]
    omega
  · simp only [ChannelClaims.count, joinLive_length]
    omega

theorem requestSeats_waits (s : State) (r : SeatRequest) : o.Waits s (s.requestSeats r).1 := by
  unfold requestSeats
  split
  · exact .same s
  · split
    · exact .same s
    · split
      · exact .same s
      · split
        · exact .same s
        · exact enterClaim_waits s _ _

theorem readmit_docket (s : State) (c : Chan) (id : CardId) : (s.readmit c id).docket = s.docket := by
  obtain ⟨j, h⟩ := readmit_frame s c id
  rw [h]
  rfl

theorem stageTen_waits (s : State) (c : Chan) (card : Card) (clock : Option ClockTime) (k : Terms) :
    o.Waits s (s.stageTen c card clock k).state := by
  unfold stageTen
  dsimp only
  generalize hdrawn : (if k.writes = true then s.drawTag.setNote c s.engine.nextTag k.charge else s) = drawn
  have drew : drawn.docket = s.docket := by
    rw [← hdrawn]
    split <;> rfl
  have held : o.Waits s (drawn.requestSeats (seatRequest c card k s.engine.nextTag)).1 :=
    (requestSeats_waits drawn _).after (.of_docket drew)
  split
  · next u _ heq =>
    rw [heq] at held
    refine (Waits.of_docket (deliver_docket _ c _)).after (Waits.after ?_ held)
    split
    · exact .of_docket (readmit_docket u c _)
    · exact .same u
  all_goals
    next u heq =>
      rw [heq] at held
      exact (refuseCase_waits u c card _).after held

theorem acceptCase_waits (s : State) (c : Chan) (card : Card) (clock : Option ClockTime) (k : Terms) :
    o.Waits s (s.acceptCase c card clock k).state := by
  unfold acceptCase
  split
  · exact refuseCase_waits s c card _
  · exact stageTen_waits s c card clock k

theorem fallback_waits (s : State) (c : Chan) (card : Card) (cause : Cause) (block : Nat) :
    o.Waits s (s.fallback c card cause block).state := by
  unfold fallback
  split
  · exact refuseCase_waits s c card _
  · exact acceptCase_waits s c card _ _

theorem referCase_waits (s : State) (c : Chan) (card : Card) (cause : Cause) (block : Nat) :
    o.Waits s (s.referCase c card cause block).1 := by
  unfold referCase
  split
  · split
    · exact fallback_waits s c card cause block
    · exact .of_docket (setSlot_docket _ _ _)
  · exact fallback_waits s c card cause block

theorem resolveSlot_waits (s : State) (i : Slot) (code : VerdictCode) : o.Waits s (s.resolveSlot i code) := by
  unfold resolveSlot
  split
  · exact .same s
  · exact (Waits.of_docket (deliver_docket _ _ _)).after (.of_docket (setSlot_docket s i none))

theorem resolveSlotOfBerth_waits (s : State) (b : Berth) (i : Slot) (code : VerdictCode) :
    o.Waits s (s.resolveSlotOfBerth b i code) := by
  unfold resolveSlotOfBerth
  split
  · exact .same s
  · split
    · exact resolveSlot_waits s i code
    · exact .same s

theorem resolveByFallback_waits (s : State) (i : Slot) : o.Waits s (s.resolveByFallback i).1 := by
  unfold resolveByFallback
  split
  · exact .same s
  · exact (fallback_waits _ _ _ _ _).after (.of_docket (setSlot_docket s i none))

theorem answerReferral_waits (s : State) (i : Slot) (r : Referral) (v : AnswerVerdict) (fare extra : Nat) :
    o.Waits s (s.answerReferral i r v fare extra).state := by
  have freed : o.Waits s (s.setSlot i none) := .of_docket (setSlot_docket s i none)
  unfold answerReferral
  dsimp only
  split
  · exact (refuseCase_waits _ _ _ _).after freed
  · exact (fallback_waits _ _ _ _ _).after freed
  · refine (acceptCase_waits _ _ _ _ _).after (Waits.after ?_ freed)
    split
    · exact .of_docket rfl
    · exact .same _

/-! ### The completion of a work (R103 to R105) -/

theorem completeStages_waits (s : State) (c : Chan) (w : Work) : o.Waits s (s.completeStages c w).1 := by
  unfold completeStages
  dsimp only
  generalize hnoted : (if (s.decideCard w.card w.snap (s.lineOf c)).2 = true then s.resolveNewest w.card.id else s) =
    noted
  have kept : o.Waits s noted := by
    rw [← hnoted]
    split
    · exact .of_docket rfl
    · exact .same s
  split
  · dsimp only
    exact (Waits.of_docket (deliver_docket noted c _)).after kept
  · have drawn : o.Waits s noted.drawTag := kept.trans (.of_docket rfl)
    dsimp only [denyWithBlock]
    exact (Waits.of_docket (deliver_docket noted.drawTag c _)).after drawn
  · exact (acceptCase_waits noted c _ _ _).after kept
  · exact (referCase_waits noted c _ _ _).after kept

/-- Once the engine has fallen free, the completion of its work takes no presentation (R92). -/
theorem completeWork_waits (s : State) (w : Work) : o.Waits s.freeEngine (s.completeWork w).1 := by
  unfold completeWork
  split
  · exact (Waits.of_docket (queue_docket _ _)).after (.of_docket rfl)
  · next c _ =>
    split
    · exact .same _
    · split
      · exact .of_docket (deliver_docket s.freeEngine c _)
      · exact .of_docket (deliver_docket s.freeEngine c _)
      · exact completeStages_waits s.freeEngine c w

end State

end Sys2Proof.Machine
end

section
/-! What the call table, the gates, the settings and the tables make of the docket: the presentations they refuse leave
it, and the claims of a call end only with the presentations of its channels. -/

namespace Sys2Proof.Machine.State

open Safety

variable {o s : State} {c : Chan}

/-! ### Claims that end -/

theorem lapseHead_thins (s : State) (c : Chan) : s.Thins (s.lapseHead c) := by
  obtain ⟨k, l, j, h⟩ := lapseHead_frame s c
  rw [h]
  exact .of_same rfl rfl rfl

theorem endClaims_thins (s : State) (c : Chan) (p : Claim → Bool) : s.Thins (s.endClaims c p) := by
  obtain ⟨k, l, j, h⟩ := endClaims_frame s c p
  rw [h]
  exact .of_same rfl rfl rfl

theorem endCallClaims_thins (s : State) (b : Berth) : s.Thins (s.endCallClaims b) := by
  obtain ⟨k, l, j, h⟩ := endCallClaims_frame s b
  rw [h]
  exact .of_same rfl rfl rfl

theorem writeDone_thins (s : State) (c : Chan) (tag : Nat) : s.Thins (s.writeDone c tag) := by
  obtain ⟨k, n, j, h⟩ := writeDone_frame s c tag
  rw [h]
  exact .of_same rfl rfl rfl

theorem writeFailed_thins (s : State) (c : Chan) (tag : Nat) : s.Thins (s.writeFailed c tag) := by
  obtain ⟨k, l, h⟩ := writeFailed_frame s c tag
  rw [h]
  exact .of_same rfl rfl rfl

theorem consumeSeat_thins (s : State) (c : Chan) (b : Berth) (k : Claim) (ks : List Claim) :
    s.Thins (s.consumeSeat c b k ks) := by
  rw [consumeSeat_eq]
  exact .of_same rfl rfl rfl

theorem countPassage_thins (s : State) (c : Chan) (b : Berth) (d : Direction) : s.Thins (s.countPassage c b d) := by
  unfold countPassage
  split
  · unfold countOutward
    dsimp only
    split <;> exact .of_docket rfl
  · split
    · rw [unpaidBoarding_eq]
      have tallied : ((s.setCall b ((s.call b).unpaidBoarded.markedAt (s.held b))).setTallies c
          { (s.chan c).tallies with unpaid := bump (s.chan c).tallies.unpaid }).docket = s.docket := setChan_docket rfl
      exact .of_docket ((queueAll_docket _ _).trans tallied)
    · exact consumeSeat_thins s c b _ _

theorem tallyPassage_docket (s : State) (c : Chan) (d : Direction) (held : Bool) :
    (s.tallyPassage c d held).docket = s.docket := by
  refine setChan_docket ?_
  cases d <;> cases held <;> rfl

theorem routePassage_thins (s : State) (c : Chan) (d : Direction) : s.Thins (s.routePassage c d) := by
  have tallied (held : Bool) : s.Thins (s.tallyPassage c d held) := .of_docket (tallyPassage_docket s c d held)
  unfold routePassage
  split
  · exact tallied true
  · dsimp only
    split
    · exact Thins.after (.of_docket (setChan_docket rfl)) (tallied false)
    · split
      · exact (countPassage_thins _ c _ d).after (tallied false)
      · exact Thins.after (.of_docket (setChan_docket rfl)) (tallied false)

/-! ### Call records (R7 to R17, R29, R165) -/

theorem markEnded_waits (s : State) (b : Berth) (reason : EndReason) : o.Waits s (s.markEnded b reason) := by
  unfold markEnded
  split
  · exact .same s
  · next w hw =>
    split
    · exact .same s
    · split
      · refine setWork_waits hw fun _ hmark => ?_
        dsimp only at hmark
        split at hmark <;> cases hmark
      · exact .same s

/-- The claims that a call's end ends stood at channels of its berth, of which nothing is pending after it (R17, R31). -/
theorem endCall_waits (hs : ClaimsOnBoarding o → ClaimsOnBoarding s) (b : Berth) (reason : EndReason) (cause : CallCause) :
    o.Waits s (s.endCall b reason cause) where
  toThins := by
    have recorded : s.Thins (s.recordEnd b reason cause) := by
      rw [recordEnd_eq]
      exact .of_docket rfl
    exact (resolveSlotOfBerth_waits (o := o) _ b .s1 _).toThins.after <|
      (resolveSlotOfBerth_waits (o := o) _ b .s0 _).toThins.after <| (markEnded_waits (o := o) _ b reason).toThins.after <|
      (refuseOfBerth_waits (o := o) _ b _ _).toThins.after <| (endCallClaims_thins _ b).after recorded
  room ho c := by
    obtain ⟨⟨a, k, p, hended⟩, -, hplaces⟩ := endCall_eq s b reason cause
    by_cases hc : s.berthOf c = some b
    · exact .inl (hplaces c hc)
    · have hclaims : (s.endCall b reason cause).claimsOf c = (s.claimsOf c).without fun k => k.berth = b := by
        rw [hended, ← claimsOf_claimsEnded]
        rfl
      have hother : ∀ k ∈ (s.claimsOf c).every, (!decide (k.berth = b)) = true := fun k hk => by
        have hberth := (hs ho c k hk).1
        simp only [Bool.not_eq_true', decide_eq_false_iff_not]
        exact fun hb => hc (hb ▸ hberth)
      right
      rw [hclaims, ChannelClaims.count, ChannelClaims.count, ChannelClaims.without,
        List.filter_eq_self.mpr fun k hk => hother k (List.mem_append_left _ hk),
        List.filter_eq_self.mpr fun k hk => hother k (List.mem_append_right _ hk)]

theorem enterLastCall_waits (s : State) (b : Berth) (cause : CallCause) : o.Waits s (s.enterLastCall b cause) := by
  rw [enterLastCall_eq]
  exact (refuseOfBerth_waits _ b _ _).after (.of_docket (queueAll_docket _ _))

theorem queueReport_docket (s : State) (b : Berth) : (s.queueReport b).docket = s.docket := queueIf_docket s _ _

theorem stateMessage_waits {berth vessel : Nat} {accepts : CallState → Bool} {act : Berth → Act}
    (h : ∀ b, o.Waits s (act b).state) : o.Waits s (s.stateMessage berth vessel accepts act).state := by
  unfold stateMessage
  split
  · exact .same s
  · split
    · exact .same s
    · split
      · exact .same s
      · split
        · exact .same s
        · exact h _

theorem actCallOpen_waits (s : State) (berth vessel line capacity declared dwell : Nat) :
    o.Waits s (s.actCallOpen berth vessel line capacity declared dwell).state := by
  unfold actCallOpen
  split
  · exact .same s
  · split
    · exact .same s
    · split
      · exact .same s
      · split
        · exact .same s
        · dsimp only [enteredReply, Act.ok]
          exact (settle_waits _ _ _).after (.of_docket ((queueIf_docket _ _ _).trans (queue_docket _ _)))

theorem actBoardStart_waits (s : State) (berth vessel : Nat) : o.Waits s (s.actBoardStart berth vessel).state := by
  refine stateMessage_waits fun b => ?_
  dsimp only [enteredReply, Act.ok]
  rw [startBoarding_eq]
  exact (settle_waits _ _ _).after (.of_docket (queueAll_docket _ _))

theorem actLastCall_waits (s : State) (berth vessel : Nat) : o.Waits s (s.actLastCall berth vessel).state := by
  refine stateMessage_waits fun b => ?_
  dsimp only [enteredReply, Act.ok]
  exact (settle_waits _ _ _).after (enterLastCall_waits s b _)

theorem actEnd_waits (hs : ClaimsOnBoarding o → ClaimsOnBoarding s) (reason : EndReason) (berth vessel : Nat) :
    o.Waits s (s.actEnd reason berth vessel).state := by
  refine stateMessage_waits fun b => ?_
  dsimp only [enteredReply, Act.ok]
  exact (settle_waits _ _ _).after (endCall_waits hs b _ _)

theorem actCallCollect_waits (s : State) (berth vessel : Nat) : o.Waits s (s.actCallCollect berth vessel).state := by
  refine stateMessage_waits fun b => ?_
  dsimp only [Act.ok]
  rw [collected_eq]
  exact (settle_waits _ _ _).after (.of_docket (queueAll_docket _ _))

theorem actAboardAdjust_waits (s : State) (berth vessel : Nat) (delta : Int) :
    o.Waits s (s.actAboardAdjust berth vessel delta).state := by
  unfold actAboardAdjust
  split
  · exact .same s
  · refine stateMessage_waits fun b => ?_
    dsimp only [Act.ok]
    rw [adjusted_eq]
    exact (settle_waits _ _ _).after (.of_docket (queueAll_docket _ _))

/-! ### Gates (R50, R51, R60, R65, R170) -/

theorem actChannelService_waits (s : State) (channel : Nat) (value : Option ServiceFlag) :
    o.Waits s (s.actChannelService channel value).state := by
  have served (c : Chan) (flag : ServiceFlag) : o.Waits s (s.setService c flag) := by
    have set : o.Waits s (s.setChan c { s.chan c with service := flag }) := .of_docket (setChan_docket rfl)
    unfold setService
    split
    · exact .same s
    · refine (settle_waits _ _ _).after ?_
      split
      · exact (refusePending_waits _ c _).after set
      · exact set
  unfold actChannelService
  split
  · exact served _ _
  · exact .same s

theorem releaseSeat_waits (s : State) (c : Chan) (b : Berth) (force : Bool) : o.Waits s (s.releaseSeat c b force) := by
  unfold releaseSeat
  dsimp only
  refine (settle_waits _ _ _).after (Waits.after ?_ (requestSeats_waits s (staffRequest c force)))
  split
  · exact .of_docket (markIfOver_docket _ b _)
  · exact .same _

theorem actChannelRelease_waits (s : State) (channel : Nat) (force : Option Bool) :
    o.Waits s (s.actChannelRelease channel force).state := by
  unfold actChannelRelease
  split
  · split
    · exact .same s
    · split
      · exact .same s
      · dsimp only [Act.ok]
        exact releaseSeat_waits s _ _ _
  · exact .same s

theorem actChannelRestore_waits (s : State) (target : RestoreTarget) :
    o.Waits s (s.actChannelRestore target).state := by
  unfold actChannelRestore
  split
  · split
    · exact .same s
    · split
      · exact .same s
      · dsimp only [Act.ok]
        split
        · exact (settle_waits _ _ _).after (.of_docket rfl)
        · exact .same s
  · split
    · exact .same s
    · have unlatched (t : State) (c : Chan) : o.Waits t (t.unlatch c) := .of_docket rfl
      dsimp only [Act.ok]
      exact (settle_waits _ _ _).after (foldl_waits unlatched _ s)

theorem takeRamp_waits (s : State) (c : Chan) (safe : Bool) : o.Waits s (s.takeRamp c safe) :=
  (settle_waits _ _ _).after (.of_docket (setChan_docket rfl))

theorem obstructionRunsOut_docket (s : State) (c : Chan) : (s.obstructionRunsOut c).docket = s.docket := by
  unfold obstructionRunsOut
  split
  · rfl
  · exact (queue_docket _ _).trans (setChan_docket rfl)

/-! ### Egress (R164 to R169) -/

theorem endByEgress_waits (hs : ClaimsOnBoarding o → ClaimsOnBoarding s) (b : Berth) :
    o.Waits s (s.endByEgress b) := by
  unfold endByEgress
  split
  · exact endCall_waits hs b _ _
  · exact .same s

theorem enterEgress_waits (hs : ClaimsOnBoarding o → ClaimsOnBoarding s) (cause : EgressCause) :
    o.Waits s (s.enterEgress cause) := by
  obtain ⟨e, q, hstart⟩ := startEgress_frame s cause
  have started : o.Waits s (s.startEgress cause) := by
    rw [hstart]
    exact .of_docket rfl
  have hstarted : ClaimsOnBoarding o → ClaimsOnBoarding (s.startEgress cause) := fun ho => by
    rw [hstart]
    exact hs ho
  have hfirst : ClaimsOnBoarding o → ClaimsOnBoarding ((s.startEgress cause).endByEgress .b0) := fun ho =>
    (endByEgress_seats _ .b0).kept.onBoarding (hstarted ho)
  exact (refuseDesk_waits _ _).after <| (resolveSlot_waits _ .s1 _).after <| (resolveSlot_waits _ .s0 _).after <|
    (endByEgress_waits hfirst .b1).after <| (endByEgress_waits hstarted .b0).after started

theorem leaveEgress_docket (s : State) : s.leaveEgress.docket = s.docket := by
  obtain ⟨e, q, h⟩ := leaveEgress_frame s
  rw [h]
  rfl

theorem actEgressEnter_waits (hs : ClaimsOnBoarding o → ClaimsOnBoarding s) : o.Waits s s.actEgressEnter.state := by
  unfold actEgressEnter
  split
  · exact .of_docket rfl
  · dsimp only [Act.ok]
    exact (settle_waits _ _ _).after (enterEgress_waits hs _)

theorem actEgressClear_waits (s : State) : o.Waits s s.actEgressClear.state := by
  unfold actEgressClear
  split
  · exact .same s
  · split
    · exact .same s
    · split
      · exact .of_docket rfl
      · dsimp only [Act.ok]
        exact (settle_waits _ _ _).after (.of_docket (leaveEgress_docket s))

theorem evacuateOn_waits (hs : ClaimsOnBoarding o → ClaimsOnBoarding s) : o.Waits s s.evacuateOn := by
  unfold evacuateOn
  dsimp only
  split
  · exact .of_docket rfl
  · exact (settle_waits _ _ _).after ((enterEgress_waits (s := s.takeEvacuate true) hs _).after (.of_docket rfl))

theorem holdRunsOut_waits (s : State) : o.Waits s s.holdRunsOut := by
  unfold holdRunsOut
  split
  · exact .same s
  · split
    · exact (settle_waits _ _ _).after (.of_docket (leaveEgress_docket s))
    · exact .of_docket rfl

/-! ### Settings (R99, R181 to R184) -/

theorem refuseBySettings_waits (s : State) (old : Settings) : o.Waits s (s.refuseBySettings old) := by
  have swept : o.Waits s (s.sweepSettings old Chan.all) := by
    refine foldl_waits (fun t c => ?_) _ s
    unfold refuseWith
    split
    · exact refusePending_waits t c _
    · exact .same t
  rw [refuseBySettings_eq]
  split
  · exact (refuseDesk_waits _ _).after swept
  · exact swept

theorem applySettings_waits (s : State) (new : Settings) : o.Waits s (s.applySettings new) := by
  unfold applySettings
  split
  · exact .same s
  · exact (settle_waits _ _ _).after ((refuseBySettings_waits _ _).after (.of_docket rfl))

theorem actSettingsSet_waits (s : State) (number : Nat) (value : SettingValue) :
    o.Waits s (s.actSettingsSet number value).state := by
  unfold actSettingsSet
  split
  · exact .same s
  · split
    · split
      · exact .same s
      · exact applySettings_waits s _
    · exact .same s

theorem actSettingsReload_waits (s : State) : o.Waits s s.actSettingsReload.state := by
  have faulted (fault : Bool) : o.Waits s (s.setFault fault) := .of_docket rfl
  unfold actSettingsReload
  split
  · exact .same s
  · split
    · exact (applySettings_waits _ _).after (faulted false)
    · exact (applySettings_waits _ _).after (faulted true)

theorem actSettingsDefault_waits (s : State) : o.Waits s s.actSettingsDefault.state := by
  unfold actSettingsDefault
  split
  · exact .same s
  · exact applySettings_waits s _

theorem actSettingsGet_docket (s : State) (number : Nat) : (s.actSettingsGet number).state.docket = s.docket := by
  unfold actSettingsGet
  split
  · rfl
  · split <;> rfl

theorem actSettingsStore_docket (s : State) : s.actSettingsStore.state.docket = s.docket := by
  unfold actSettingsStore
  split
  · rfl
  · split <;> rfl

theorem endStore_docket (s : State) (readBack : StoredImage) : (s.endStore readBack).docket = s.docket := by
  unfold endStore
  split
  · rfl
  · exact queue_docket _ _

/-! ### Referrals (R153 to R156, R179) -/

theorem actReferAnswer_waits (s : State) (id : Nat) (verdict : Option AnswerVerdict) (fare extra : Nat) :
    o.Waits s (s.actReferAnswer id verdict fare extra).state := by
  unfold actReferAnswer
  split
  · exact .same s
  · split
    · exact .same s
    · split
      · exact .same s
      · split
        · exact .same s
        · dsimp only [Act.ok]
          exact (settle_waits _ _ _).after (answerReferral_waits s _ _ _ _ _)

theorem referralRunsOut_waits (s : State) (i : Slot) : o.Waits s (s.referralRunsOut i) := by
  unfold referralRunsOut
  split
  · exact .same s
  · split
    · exact (settle_waits _ _ _).after (resolveByFallback_waits s i)
    · exact .same s

theorem supervisionRunsOut_waits (s : State) : o.Waits s s.supervisionRunsOut := by
  unfold supervisionRunsOut
  split
  · exact .same s
  · exact (settle_waits _ _ _).after <| (resolveByFallback_waits _ .s1).after <|
      (resolveByFallback_waits _ .s0).after (.of_docket (queue_docket _ _))

/-! ### The clock, loads and tables (R139 to R150, R161, R162) -/

theorem activatePending_docket (s : State) (cause : TariffCause) : (s.activatePending cause).docket = s.docket := by
  unfold activatePending
  split
  · split
    · exact queue_docket _ _
    · rfl
  · rfl

theorem actClockSet_docket (s : State) (day secs : Nat) : (s.actClockSet day secs).state.docket = s.docket := by
  unfold actClockSet
  split
  · rfl
  · exact activatePending_docket _ _

theorem actRestart_docket (s : State) : s.actRestart.state.docket = s.docket := by
  unfold actRestart
  split <;> rfl

theorem actLoadBegin_docket (s : State) (kind : Option LoadKind) (version count : Nat) (crc : BitVec 16) :
    (s.actLoadBegin kind version count crc).state.docket = s.docket := by
  unfold actLoadBegin
  split
  · rfl
  · split
    · rfl
    · dsimp only
      split
      · rfl
      · split <;> rfl

theorem actLoadSegment_docket (s : State) (len : BodyLen) (index : Nat) (entries : List LoadEntry) :
    (s.actLoadSegment len index entries).state.docket = s.docket := by
  unfold actLoadSegment
  split
  · rfl
  · split
    · rfl
    · split
      · rfl
      · split
        · rfl
        · dsimp only
          split <;> rfl

theorem putTable_docket (s : State) (l : Load) : (s.putTable l).1.docket = s.docket := by
  unfold putTable
  dsimp only
  split
  · rfl
  · rfl
  · split
    · exact queue_docket _ _
    · rfl

theorem actLoadCommit_docket (s : State) : s.actLoadCommit.state.docket = s.docket := by
  unfold actLoadCommit
  split
  · rfl
  · split
    · rfl
    · exact putTable_docket s _

theorem actLoadAbort_docket (s : State) : s.actLoadAbort.state.docket = s.docket := by
  unfold actLoadAbort
  split <;> rfl

theorem loadRunsOut_docket (s : State) : s.loadRunsOut.docket = s.docket := by
  unfold loadRunsOut
  split
  · rfl
  · split
    · exact queue_docket _ _
    · rfl

theorem actDenyEdit_docket (s : State) (len : BodyLen) (op : Option DenyOp) (items : List DenyItem) :
    (s.actDenyEdit len op items).state.docket = s.docket := by
  unfold actDenyEdit
  split
  · rfl
  · split
    · rfl
    · split
      · rfl
      · split
        · dsimp only
          split <;> rfl
        · rfl

theorem actTableQuery_docket (s : State) (subject : Subject) : (s.actTableQuery subject).state.docket = s.docket := by
  unfold actTableQuery
  split
  · rfl
  · rfl
  · split <;> rfl
  · split <;> rfl
  · rfl
  · rfl

theorem actAllotSet_docket (s : State) (token : CardId) (line total block : Nat) (expiry : Option ClockTime) :
    (s.actAllotSet token line total block expiry).state.docket = s.docket := by
  unfold actAllotSet
  split
  · rfl
  · split <;> split <;> rfl

theorem actAllotRemove_docket (s : State) (token : CardId) : (s.actAllotRemove token).state.docket = s.docket := by
  unfold actAllotRemove
  split
  · rfl
  · split
    · rfl
    · split <;> rfl

theorem actAllotQuery_docket (s : State) (key : AllotKey) : (s.actAllotQuery key).state.docket = s.docket := by
  unfold actAllotQuery
  split <;> split <;> rfl

/-! ### The passing of time (R149) -/

theorem idle_waits (s : State) : o.Waits s s.idle := by
  unfold idle
  split
  · have hchan (c : Chan) : s.tick.chan c = (s.chan c).later := PerChan.get_of ..
    refine ⟨⟨fun _ => .inl rfl, .inl rfl, fun c => ?_, .rfl, fun _ hw _ _ => hw⟩, fun _ c => .inr ?_⟩
    · rw [hchan]
      rfl
    · rw [tick_claimsOf, (claimsLater_follow s c).1]
  · exact .same s

theorem goInactive_docket (s : State) : s.goInactive.docket = s.docket := by
  have htaken : s.goInactive.docket.taken = s.docket.taken := by
    funext c
    cases c <;> rfl
  exact congrArg (fun n => { s.docket with taken := n }) htaken

end Sys2Proof.Machine.State
end

section
/-! Where the engine's work comes from. An event ends with no further presentation eligible, or with a selection among
presentations that were pending before or arrived with the command. -/

namespace Sys2Proof.Machine

open Safety

namespace State

/-- Where a presentation comes from that a command finds pending or brings: PRESENT and DESK_CHECK bring one, and beside
it PRESENT finds one of its channel only where none is outstanding there. -/
def Came (s : State) (i : Instr) : Requester → Card → Nat → Prop
  | .channel c, card, since =>
    (∃ body, i = .present c body ∧ Card.parse body = some card ∧ since = s.uptime) ∨
      s.arbiter.places.get c = some ⟨card, since⟩ ∧ ∀ body, i = .present c body → (s.port c).outstanding = none
  | .desk line, card, since =>
    (∃ body, i = .deskCheck line body ∧ Card.parse body = some card ∧ since = s.uptime) ∨
      s.arbiter.desk = some ⟨card, line, since⟩ ∧ ∀ n body, i ≠ .deskCheck n body

/-- What an event of a command offers to the selection at its end. -/
structure Offers (s : State) (i : Instr) (u : State) : Prop where
  place : ∀ c p, u.arbiter.places.get c = some p → s.Came i (.channel c) p.card p.arrival
  desk : ∀ p, u.arbiter.desk = some p → s.Came i (.desk p.line) p.card p.arrival
  taken : ∀ c, (u.chan c).tallies.taken = (s.chan c).tallies.taken

/-- How the event of a command ends: with no further presentation eligible, with nothing pending, or with a selection
from what the event offers, before which the engine has the work it had. -/
inductive Closes (s : State) (i : Instr) : State → Prop
  | waits {t : State} : s.Waits s t → s.Closes i t
  | cleared {t : State} : t.engine.work = none → t.candidates = [] → s.Closes i t
  | selects {u : State} (bus : Bus) : s.Offers i u →
      (∀ w, u.engine.work = some w → w.withdrawn = false → w.mark = .none → s.engine.work = some w) →
      s.Closes i { u.select with bus := bus }

variable {s t u : State} {i : Instr} {c : Chan} {card : Card} {line : Nat}

/-! ### A selection and the idle engine (R91, R92) -/

theorem candidates_eq_nil_iff : s.candidates = [] ↔
    (∀ c, s.arbiter.places.get c = none ∨ Config.claimsPerChannel ≤ (s.claimsOf c).count) ∧ s.arbiter.desk = none := by
  have hplace (c : Chan) : s.channelCandidate c = [] ↔
      (s.arbiter.places.get c = none ∨ Config.claimsPerChannel ≤ (s.claimsOf c).count) := by
    unfold channelCandidate
    split
    · next hnone => simp [hnone]
    · next p hp => simp [hp]
  have hdesk : s.deskCandidate = [] ↔ s.arbiter.desk = none := by
    unfold deskCandidate
    split
    · next hnone => simp [hnone]
    · next p hp => simp [hp]
  rw [← hdesk, ← forall_congr' hplace]
  refine ⟨candidates_nil, fun ⟨hplaces, hnone⟩ => ?_⟩
  unfold candidates
  rw [hnone, List.append_nil, List.flatMap_eq_nil_iff]
  exact fun c _ => hplaces c

theorem select_of_candidates_nil (h : s.candidates = []) : s.select = s := by
  unfold select
  split
  · rfl
  · rw [h]
    rfl

theorem select_freeEngineIdle (s : State) : FreeEngineIdle s.select := by
  intro hfree
  have hnone := select_idle s hfree
  rwa [select_of_candidates_nil hnone]

/-- Nothing becomes eligible in a part of an event that waits: what is pending was pending, with no fewer claims. -/
theorem Waits.freeEngineIdle (h : s.Waits s t) (hclaims : ClaimsOnBoarding s) (hs : FreeEngineIdle s) :
    FreeEngineIdle t := by
  intro hfree
  obtain ⟨hplaces, hdesk⟩ := candidates_eq_nil_iff.mp (hs (h.busy.mp hfree))
  refine candidates_eq_nil_iff.mpr ⟨fun c => ?_, ?_⟩
  · rcases hplaces c with hc | hc
    · exact .inl (h.empty hc)
    · exact (h.room hclaims c).imp_right hc.trans
  · rcases h.desk with e | e
    · exact e.trans hdesk
    · exact e

theorem Closes.freeEngineIdle (h : s.Closes i t) (hclaims : ClaimsOnBoarding s) (hs : FreeEngineIdle s) :
    FreeEngineIdle t := by
  cases h with
  | waits h => exact h.freeEngineIdle hclaims hs
  | cleared _ hnone => exact fun _ => hnone
  | selects bus _ _ => exact select_freeEngineIdle _

/-! ### The work that a selection takes (R91 to R94, R102) -/

/-- What a command's event leaves where the engine has taken a work: the presentation taken, where it comes from, and
the tally of presentations taken. -/
def TakesWork (s : State) (i : Instr) (t : State) (w : Work) : Prop :=
  ∃ since, t.Took w since ∧
    (∀ c, w.requester = .channel c →
      ((∃ body, i = .present c body ∧ Card.parse body = some w.card ∧ since = s.uptime) ∨
        (∀ body, i ≠ .present c body) ∧ s.arbiter.places.get c = some ⟨w.card, since⟩) ∧
      (t.chan c).tallies.taken = min ((s.chan c).tallies.taken + 1) 65535) ∧
    ∀ line, w.requester = .desk line →
      (∃ body, i = .deskCheck line body ∧ Card.parse body = some w.card ∧ since = s.uptime) ∨
      (∀ n body, i ≠ .deskCheck n body) ∧ s.arbiter.desk = some ⟨w.card, line, since⟩

/-- A pending presentation is outstanding at its reader (R83). -/
theorem outstanding_of_place {p : Pending} (hs : HeldOnce s) (h : s.arbiter.places.get c = some p) :
    (s.port c).outstanding ≠ none := by
  intro hnone
  have honce := hs c
  rw [holders, h, hnone] at honce
  simp [oneIf] at honce

/-- A free engine that selects from what an event offers takes the first in the ranking. -/
theorem Offers.takesWork (h : s.Offers i u) (hs : HeldOnce s) (hfree : u.engine.work = none) (bus : Bus) {w : Work}
    (hw : u.select.engine.work = some w) : s.TakesWork i { u.select with bus := bus } w := by
  have hsome : u.candidates ≠ [] := fun hnone => by
    rw [select_of_candidates_nil hnone, hfree] at hw
    cases hw
  obtain ⟨x, since, htook, -, hchannel, hdesk⟩ := select_took u hfree hsome
  obtain rfl := Option.some.inj (hw.symm.trans htook.work)
  refine ⟨since, ⟨htook.work, htook.eligible, htook.emptied, htook.first⟩, fun c hc => ?_, fun line hline => ?_⟩
  · obtain ⟨hplace, htaken⟩ := hchannel c hc
    refine ⟨(h.place c _ hplace).imp_right fun ⟨hpending, hnone⟩ => ?_, htaken.trans (congrArg bump (h.taken c))⟩
    exact ⟨fun body hi => outstanding_of_place hs hpending (hnone body hi), hpending⟩
  · exact (h.desk _ (hdesk line hline)).imp_right And.symm

/-- New work is the work of a selection. -/
theorem Closes.takesWork (h : s.Closes i t) (hs : HeldOnce s) {w : Work} (hw : t.engine.work = some w)
    (hkept : w.withdrawn = false) (hmark : w.mark = .none) (hnew : s.engine.work ≠ some w) : s.TakesWork i t w := by
  cases h with
  | waits h => exact absurd (h.work w hw hkept hmark) hnew
  | cleared hnone _ => cases hnone.symm.trans hw
  | @selects u bus hoffers hwork =>
    cases hu : u.engine.work with
    | none => exact hoffers.takesWork hs hu bus hw
    | some x =>
      have hsame : u.engine.work = some w := by
        rw [← hw]
        exact (congrArg (·.engine.work) (select_of_work hu)).symm
      exact absurd (hwork w hsame hkept hmark) hnew

/-! ### Events that end with a selection -/

/-- A command that brings no presentation offers those that were pending. -/
theorem Offers.of_thins (hpresent : ∀ c body, i ≠ .present c body) (hdesk : ∀ n body, i ≠ .deskCheck n body)
    (hplace : ∀ c, u.arbiter.places.get c = s.arbiter.places.get c ∨ u.arbiter.places.get c = none)
    (hcheck : u.arbiter.desk = s.arbiter.desk ∨ u.arbiter.desk = none)
    (htaken : ∀ c, (u.chan c).tallies.taken = (s.chan c).tallies.taken) : s.Offers i u where
  place c p hp := by
    rcases hplace c with e | e
    · exact .inr ⟨e.symm.trans hp, fun body hi => absurd hi (hpresent c body)⟩
    · cases e.symm.trans hp
  desk p hp := by
    rcases hcheck with e | e
    · exact .inr ⟨e.symm.trans hp, hdesk⟩
    · cases e.symm.trans hp
  taken := htaken

theorem Thins.closes (h : s.Thins u) (hpresent : ∀ c body, i ≠ .present c body)
    (hdesk : ∀ n body, i ≠ .deskCheck n body) : s.Closes i u.select :=
  .selects u.select.bus (.of_thins hpresent hdesk h.place h.desk h.taken) h.work

theorem settle_thins (before s : State) (after : List Notice) : s.Thins (settle before s after) :=
  (settle_waits (o := s) before s after).toThins

/-- The completion of a work frees the engine, which then selects from what is pending (R92, R105). -/
theorem complete_offers {w : Work} (hw : s.engine.work = some w) :
    ∃ u, s.complete = u.select ∧ u.engine.work = none ∧ s.Offers .validationCompletion u := by
  have h := (settle_thins s (s.completeWork w).1 (s.completeWork w).2).after
    (completeWork_waits (o := s) s w).toThins
  refine ⟨settle s (s.completeWork w).1 (s.completeWork w).2, ?_, h.busy.mpr rfl,
    .of_thins nofun nofun h.place h.desk h.taken⟩
  rw [complete, hw]

/-! ### A presentation that arrives (R83, R88) -/

theorem arrive_docket (s : State) (c : Chan) (card : Card) : (s.arrive c card).docket = { s.docket with
    places := if s.arrivalRefusal c = none then s.arbiter.places.set c (some ⟨card, s.uptime⟩) else s.arbiter.places } := by
  unfold arrive
  cases hrefused : s.arrivalRefusal c with
  | none => rfl
  | some code => exact deliver_docket s c _

theorem withdrawPresentation_place (h : (s.port c).outstanding ≠ none) :
    (s.withdrawPresentation c).arbiter.places.get c = none := by
  rw [withdrawPresentation_held h]
  exact (PerChan.get_set ..).trans (if_pos rfl)

/-- What a PRESENT offers to the selection at its end: its own card, and what was pending elsewhere. -/
theorem takePresent_closes {body : List Octet} (hbody : Card.parse body = some card) :
    s.Closes (.present c body) (s.takePresent c card) := by
  have hthins := withdrawn_thins s c
  have hempty : (s.port c).outstanding ≠ none →
      ((s.withdrawPresentation c).endWriteUnknown c).arbiter.places.get c = none := fun hout =>
    (endWriteUnknown_thins _ c).empty (withdrawPresentation_place hout)
  have huptime : ((s.withdrawPresentation c).endWriteUnknown c).uptime = s.uptime := by
    obtain ⟨p, k, l, j, h⟩ := endWriteUnknown_frame (s.withdrawPresentation c) c
    obtain ⟨q, a, w, x, y, h'⟩ := withdrawPresentation_frame s c
    rw [h, h']
  unfold takePresent
  dsimp only
  generalize (s.withdrawPresentation c).endWriteUnknown c = ended at hthins hempty huptime ⊢
  have harrived := arrive_docket (ended.setPort c { ended.port c with outstanding := some card }) c card
  generalize (ended.setPort c { ended.port c with outstanding := some card }).arrive c card = arrived at harrived ⊢
  have hplaces := congrArg Docket.places harrived
  have hcheck : arrived.arbiter.desk = ended.arbiter.desk := congrArg Docket.desk harrived
  have hwork : arrived.engine.work = ended.engine.work := congrArg Docket.work harrived
  have htaken (d : Chan) : (arrived.chan d).tallies.taken = (ended.chan d).tallies.taken :=
    congrFun (congrArg Docket.taken harrived) d
  have hsettled := settle_thins s arrived []
  generalize settle s arrived [] = closed at hsettled ⊢
  have pending {d : Chan} {p : Pending} (hp : ended.arbiter.places.get d = some p) :
      s.Came (.present c body) (.channel d) p.card p.arrival := by
    have hd : s.arbiter.places.get d = some p := by
      rcases hthins.place d with e | e
      · exact e.symm.trans hp
      · cases e.symm.trans hp
    refine .inr ⟨hd, fun other hi => ?_⟩
    obtain ⟨rfl, -⟩ := Instr.present.inj hi
    by_contra hout
    cases (hempty hout).symm.trans hp
  refine .selects closed.select.bus ⟨fun d p hp => ?_, fun p hp => ?_, fun d => ?_⟩ fun w hw hkept hmark => ?_
  · have hp' : arrived.arbiter.places.get d = some p := by
      rcases hsettled.place d with e | e
      · exact e.symm.trans hp
      · cases e.symm.trans hp
    rw [show arrived.arbiter.places = _ from hplaces] at hp'
    dsimp only at hp'
    split at hp'
    · rw [PerChan.get_set] at hp'
      split at hp'
      · next hd =>
        obtain rfl := Option.some.inj hp'
        exact .inl ⟨body, by rw [hd], hbody, huptime⟩
      · exact pending hp'
    · exact pending hp'
  · refine .inr ⟨?_, nofun⟩
    rcases hsettled.desk with e | e
    · rcases hthins.desk with e' | e'
      · exact (e.trans (hcheck.trans e')).symm.trans hp
      · cases (e.trans (hcheck.trans e')).symm.trans hp
    · cases e.symm.trans hp
  · exact (hsettled.taken d).trans ((htaken d).trans (hthins.taken d))
  · exact hthins.work w (hwork.symm.trans (hsettled.work w hw hkept hmark)) hkept hmark

/-! ### A desk check that arrives (R89, R90, R100) -/

/-- The verdict that refuses a desk check at its arrival (R100). -/
def deskVerdict (s : State) : Option VerdictCode :=
  if s.egress.active then some .egress else if s.cfg.deskLevel = 0 then some .notServed else none

/-- A desk check that is refused at its arrival is answered at once, and the desk is free (R89, R100). -/
theorem arriveDesk_refused {code : VerdictCode} (h : s.deskVerdict = some code) (card : Card) (line : Nat) :
    s.arriveDesk card line = { s with
      arbiter := { s.arbiter with desk := none, deskOccupied := false }
      notices := addNotice s.notices (.deskResult (deskRefusal card line code)) } := by
  have refused : ∀ code, refuseDesk { s with arbiter := { s.arbiter with
      desk := some ⟨card, line, s.uptime⟩, deskOccupied := true } } code = { s with
        arbiter := { s.arbiter with desk := none, deskOccupied := false }
        notices := addNotice s.notices (.deskResult (deskRefusal card line code)) } := fun code => queue_eq _ _
  unfold deskVerdict at h
  unfold arriveDesk
  dsimp only
  split at h
  · next hactive =>
    obtain rfl := Option.some.inj h
    rw [if_pos hactive]
    exact refused _
  · next hactive =>
    rw [if_neg hactive]
    split at h
    · next hlevel =>
      obtain rfl := Option.some.inj h
      exact (if_pos hlevel).trans (refused _)
    · cases h

/-- Any other desk check occupies the desk and is pending (R90). -/
theorem arriveDesk_pending (h : s.deskVerdict = none) (card : Card) (line : Nat) :
    s.arriveDesk card line = { s with arbiter := { s.arbiter with
      desk := some ⟨card, line, s.uptime⟩
      deskOccupied := true } } := by
  unfold deskVerdict at h
  unfold arriveDesk
  dsimp only
  split at h
  · cases h
  · next hactive =>
    rw [if_neg hactive]
    split at h
    · cases h
    · next hlevel => exact if_neg hlevel

theorem arriveDesk_docket (s : State) (card : Card) (line : Nat) : (s.arriveDesk card line).docket = { s.docket with
    desk := if s.deskVerdict = none then some ⟨card, line, s.uptime⟩ else none } := by
  cases h : s.deskVerdict with
  | none =>
    rw [arriveDesk_pending h]
    rfl
  | some code =>
    rw [arriveDesk_refused h]
    rfl

/-- What a DESK_CHECK offers to the selection at its end: its own card, and what is pending at the channels. -/
theorem arriveDesk_closes {body : List Octet} (hbody : Card.parse body = some card) (bus : Bus) :
    s.Closes (.deskCheck line body) { (settle s (s.arriveDesk card line) []).select with bus := bus } := by
  have harrived := arriveDesk_docket s card line
  generalize s.arriveDesk card line = arrived at harrived ⊢
  have hplaces : arrived.arbiter.places = s.arbiter.places := congrArg Docket.places harrived
  have hcheck : arrived.arbiter.desk = if s.deskVerdict = none then some ⟨card, line, s.uptime⟩ else none :=
    congrArg Docket.desk harrived
  have hwork : arrived.engine.work = s.engine.work := congrArg Docket.work harrived
  have htaken (d : Chan) : (arrived.chan d).tallies.taken = (s.chan d).tallies.taken :=
    congrFun (congrArg Docket.taken harrived) d
  have hsettled := settle_thins s arrived []
  generalize settle s arrived [] = closed at hsettled ⊢
  refine .selects bus ⟨fun d p hp => .inr ⟨?_, nofun⟩, fun p hp => ?_, fun d => ?_⟩ fun w hw hkept hmark => ?_
  · rw [← hplaces]
    rcases hsettled.place d with e | e
    · exact e.symm.trans hp
    · cases e.symm.trans hp
  · have hp' : arrived.arbiter.desk = some p := by
      rcases hsettled.desk with e | e
      · exact e.symm.trans hp
      · cases e.symm.trans hp
    rw [hcheck] at hp'
    split at hp'
    · obtain rfl := Option.some.inj hp'
      exact .inl ⟨body, rfl, hbody, rfl⟩
    · cases hp'
  · exact (hsettled.taken d).trans (htaken d)
  · exact hwork.symm.trans (hsettled.work w hw hkept hmark)

/-! ### Requests and frames of a reader (R76, R174) -/

theorem whenRunning_closes {f : State → State} (h : s.Closes i (f s)) : s.Closes i (s.whenRunning f) := by
  unfold whenRunning
  split
  · exact h
  · exact .waits (.same s)

theorem whenRunning_waits {f : State → State} (h : s.Waits s (f s)) : s.Closes i (s.whenRunning f) :=
  whenRunning_closes (.waits h)

theorem whenRunning_docket {f : State → State} (h : (f s).docket = s.docket) : s.Closes i (s.whenRunning f) :=
  whenRunning_waits (.of_docket h)

theorem request_waits {kind : MsgKind} {dest : Dest} {len : BodyLen} {act : State → Act}
    (h : s.Waits s.beginRequest (act s.beginRequest).state) : s.Closes i (s.request kind dest len act) := by
  have begun : s.Waits s s.beginRequest := .of_docket rfl
  have answered (a : Act) : (answer kind.code dest a).docket = a.state.docket := by cases dest <;> rfl
  refine whenRunning_waits (Waits.after (.of_docket (answered _)) ?_)
  cases len with
  | wrong => exact begun
  | fits => exact begun.trans h

theorem request_docket {kind : MsgKind} {dest : Dest} {len : BodyLen} {act : State → Act}
    (h : ∀ s, (act s).state.docket = s.docket) : s.Closes i (s.request kind dest len act) :=
  request_waits (.of_docket (h _))

theorem Came.of_same {q : Requester} {card : Card} {since : Nat} (h : u.Came i q card since)
    (hdocket : u.docket = s.docket) (huptime : u.uptime = s.uptime)
    (hport : ∀ c, (u.port c).outstanding = (s.port c).outstanding) : s.Came i q card since := by
  have hplaces : u.arbiter.places = s.arbiter.places := congrArg Docket.places hdocket
  have hdesk : u.arbiter.desk = s.arbiter.desk := congrArg Docket.desk hdocket
  unfold Came at h ⊢
  rw [huptime, hplaces, hdesk] at h
  simpa only [hport] using h

/-- What brings a command to an event may touch nothing that the event's end rests on. -/
theorem Closes.of_same (h : u.Closes i t) (hdocket : u.docket = s.docket) (huptime : u.uptime = s.uptime)
    (hclaims : ClaimsOnBoarding s → ClaimsOnBoarding u)
    (hport : ∀ c, (u.port c).outstanding = (s.port c).outstanding) : s.Closes i t := by
  have begun : s.Waits s u := .of_docket hdocket
  cases h with
  | waits h => exact .waits (begun.trans ⟨h.toThins, fun hs => h.room (hclaims hs)⟩)
  | cleared hfree hnone => exact .cleared hfree hnone
  | selects bus h hwork =>
    refine .selects bus ⟨fun c p hp => ?_, fun p hp => ?_, fun c => ?_⟩ fun w hw hkept hmark => ?_
    · exact (h.place c p hp).of_same hdocket huptime hport
    · exact (h.desk p hp).of_same hdocket huptime hport
    · exact (h.taken c).trans (begun.taken c)
    · exact begun.work w (hwork w hw hkept hmark) hkept hmark

/-- A frame that is heard changes nothing that an event's end rests on. -/
theorem Closes.of_heard (h : (s.setPort c (heard (s.port c))).Closes i t) : s.Closes i t := by
  refine h.of_same rfl rfl id fun d => ?_
  rw [port_setPort]
  split
  · next hd => rw [hd]; rfl
  · rfl

/-- A frame of a reader closes as what it carries does, and one that only attaches the line waits. -/
theorem hearReader_closes {take : State → State} (h : ∀ s : State, s.Closes i (take s)) :
    s.Closes i (s.hearReader c take) := by
  unfold hearReader
  split
  · exact .waits ((Waits.of_docket (attachAnew_docket _ c)).after (.of_docket rfl))
  · exact .of_heard (h _)
  · exact .of_heard (h _)

theorem whenUp_closes {take : State → State} (h : s.Closes i (take s)) : s.Closes i (s.whenUp c take) := by
  unfold whenUp
  split
  · exact h
  · exact .waits (.same s)
  · exact .waits (.same s)

end State

end Sys2Proof.Machine
end
section
/-! O11: every command's event ends as `Closes` says, and so does every step (R87, R91 to R94, R102). -/

namespace Sys2Proof.Machine

open Safety

namespace State

variable {s t : State} {i : Instr} {c : Chan}

/-! ### Frames and timers of a reader (R78 to R86) -/

theorem leaveUp_docket (s : State) (c : Chan) (line : LineState) : (s.leaveUp c line).docket = s.docket :=
  setChan_docket rfl

theorem lineDown_docket (s : State) (c : Chan) : (s.lineDown c).docket = s.docket := by
  unfold lineDown
  dsimp only
  split
  · exact setChan_docket rfl
  · rfl

theorem frameSent_docket (s : State) (c : Chan) : (s.frameSent c).docket = s.docket := by
  unfold frameSent
  split
  · rfl
  · split
    · rfl
    · exact startRecord_docket _ c _

theorem attachRunsOut_docket (s : State) (c : Chan) : (s.attachRunsOut c).docket = s.docket := by
  unfold attachRunsOut
  split
  · exact attachAnew_docket s c
  · rfl

theorem takeWithdraw_waits (s : State) (c : Chan) (id : CardId) : s.Waits s (s.takeWithdraw c id) := by
  unfold takeWithdraw
  split
  · exact .same s
  · split
    · exact withdrawPresentation_waits s c
    · exact .same s

theorem takeReady_closes (s : State) (c : Chan) : s.Closes (.ready c) (s.takeReady c) := by
  unfold takeReady
  split
  · exact .waits ((settle_waits _ _ _).after (.of_docket rfl))
  · refine Thins.closes ?_ nofun nofun
    exact Thins.after (.of_docket (attachAnew_docket _ c)) <| (settle_thins _ _ _).after <|
      Thins.after (.of_docket (leaveUp_docket _ c _)) (withdrawn_thins s c)
  · exact .waits (.same s)

theorem takeWriteResult_closes (s : State) (c : Chan) (tag : Nat) (ok : Bool) (body : List Octet) :
    s.Closes (.writeResult c body) (s.takeWriteResult c tag ok) := by
  unfold takeWriteResult
  split
  · exact .waits (.same s)
  · split
    · exact .waits (.same s)
    · have ended : s.Thins (s.setPort c { s.port c with awaited := none }) := .of_docket rfl
      refine Thins.closes ((settle_thins _ _ _).after ?_) nofun nofun
      split
      · exact (writeDone_thins _ c tag).after ended
      · exact (writeFailed_thins _ c tag).after ended

theorem inactivityRunsOut_closes (s : State) (c : Chan) :
    s.Closes (.readerInactivityExpiry c) (s.inactivityRunsOut c) := by
  unfold inactivityRunsOut
  dsimp only
  split
  · exact .waits (.same s)
  · refine Thins.closes ((settle_thins _ _ _).after ((withdrawn_thins _ c).after (.of_docket ?_))) nofun nofun
    exact (lineDown_docket _ c).trans (queue_docket s _)

theorem writeRunsOut_closes (s : State) (c : Chan) : s.Closes (.writeTimerExpiry c) (s.writeRunsOut c) := by
  unfold writeRunsOut
  split
  · exact .waits (.same s)
  · split
    · exact Thins.closes ((settle_thins _ _ _).after (endWriteUnknown_thins s c)) nofun nofun
    · exact .waits (.same s)

/-! ### Claims that end, and the beams (R41, R43 to R48, R57 to R60, R64) -/

theorem windowRunsOut_closes (s : State) (c : Chan) : s.Closes (.passWindowExpiry c) (s.windowRunsOut c) := by
  unfold windowRunsOut
  split
  · exact Thins.closes ((settle_thins _ _ _).after (lapseHead_thins s c)) nofun nofun
  · exact .waits (.same s)

theorem suspensionRunsOut_closes (s : State) (c : Chan) :
    s.Closes (.suspensionTimerExpiry c) (s.suspensionRunsOut c) := by
  unfold suspensionRunsOut
  split
  · refine Thins.closes ((settle_thins _ _ _).after ((endClaims_thins _ c _).after (.of_docket ?_))) nofun nofun
    exact setChan_docket rfl
  · exact .waits (.same s)

theorem beamMoves_closes (s : State) (c : Chan) (beam : Beam) (broken : Bool) :
    s.Closes (.beamEvent c beam broken) (s.beamMoves c beam broken) := by
  unfold beamMoves
  split
  · exact .waits (.same s)
  · next tracker passage _ =>
    have moved : s.Thins (s.takeBeam c beam broken tracker) := .of_docket (setChan_docket rfl)
    refine Thins.closes ((settle_thins _ _ _).after ?_) nofun nofun
    split
    · exact moved
    · exact (routePassage_thins _ c _).after moved

/-! ### A desk check, and the completion of a work (R90, R92, R105) -/

theorem deskCheck_closes (s : State) (line : Nat) (body : List Octet) :
    s.Closes (.deskCheck line body) (s.request .deskCheck .part .fits (actDeskCheck line body)) := by
  have refused : s.Waits s s.beginRequest := .of_docket rfl
  refine whenRunning_closes ?_
  dsimp only
  unfold actDeskCheck
  split
  · exact .waits (refused.trans (.of_docket rfl))
  · next card hbody =>
    split
    · exact .waits (refused.trans (.of_docket rfl))
    · split
      · exact .waits (refused.trans (.of_docket rfl))
      · exact (arriveDesk_closes (s := s.beginRequest) hbody _).of_same rfl rfl id fun _ => rfl

theorem complete_closes (s : State) : s.Closes .validationCompletion s.complete := by
  cases hw : s.engine.work with
  | none =>
    have hsame : s.complete = s := by rw [complete, hw]
    rw [hsame]
    exact .waits (.same s)
  | some w =>
    obtain ⟨u, hu, hfree, hoffers⟩ := complete_offers hw
    rw [hu]
    exact .selects u.select.bus hoffers fun x hx => nomatch hfree.symm.trans hx

/-! ### Start-up (R185) -/

theorem startUp_closes (s : State) (cause : StartCause) (found : Found) : s.Closes i (s.startUp cause found) := by
  obtain ⟨k, hk⟩ := startUp_frame s cause found
  obtain ⟨e, q, hq⟩ := started_frame s cause found
  have hframe : s.startUp cause found = { s.cleared cause found with egress := e, notices := q, channels := k } := by
    rw [hk, hq]
  rw [hframe]
  refine .cleared rfl (candidates_eq_nil_iff.mpr ⟨fun c => .inl ?_, rfl⟩)
  cases c <;> rfl

end State

open State

/-! ### Every command, and every step -/

/-- Every command's event ends with nothing more eligible, or with a selection from what it offers. -/
theorem exec_closes {i : Instr} {s t : State} (h : exec i s = .next t) : s.Closes i t := by
  cases i <;> obtain rfl := Host.Outcome.next.inj h
  case powerOn found => exact startUp_closes s _ found
  case supplyDip => exact whenRunning_docket (goInactive_docket s)
  case supplyRecovered found =>
    split
    · exact startUp_closes s _ found
    · exact .waits (.same s)
  case commandStartUp found =>
    refine whenRunning_closes ?_
    split
    · exact startUp_closes s _ found
    · exact .waits (.same s)
  case poll => exact request_docket fun _ => rfl
  case status => exact request_docket fun _ => rfl
  case statusClear => exact request_docket fun _ => rfl
  case restart => exact request_docket actRestart_docket
  case unknownKind => exact whenRunning_docket rfl
  case broadcastIgnored => exact whenRunning_docket rfl
  case busFrameDiscarded why => exact whenRunning_docket (by cases why <;> rfl)
  case busReplySent => exact whenRunning_docket (by split <;> rfl)
  case clockSet day secs => exact request_docket fun s => actClockSet_docket s day secs
  case clockSecond =>
    refine whenRunning_docket ?_
    split
    · rfl
    · exact activatePending_docket _ _
  case callOpen => exact request_waits (actCallOpen_waits _ _ _ _ _ _ _)
  case boardStart => exact request_waits (actBoardStart_waits _ _ _)
  case lastCall => exact request_waits (actLastCall_waits _ _ _)
  case castOff => exact request_waits (actEnd_waits (o := s) (s := s.beginRequest) id _ _ _)
  case callCancel => exact request_waits (actEnd_waits (o := s) (s := s.beginRequest) id _ _ _)
  case callQuery => exact request_docket fun s => by unfold actCallQuery; split <;> rfl
  case callCollect => exact request_waits (actCallCollect_waits _ _ _)
  case aboardAdjust => exact request_waits (actAboardAdjust_waits _ _ _ _)
  case channelQuery => exact request_docket fun s => by unfold actChannelQuery; split <;> rfl
  case channelService => exact request_waits (actChannelService_waits _ _ _)
  case channelRelease => exact request_waits (actChannelRelease_waits _ _ _)
  case channelRestore => exact request_waits (actChannelRestore_waits _ _)
  case egressEnter => exact request_waits (actEgressEnter_waits id)
  case egressClear => exact request_waits (actEgressClear_waits _)
  case loadBegin => exact request_docket fun s => actLoadBegin_docket s _ _ _ _
  case loadSegment => exact request_docket fun s => actLoadSegment_docket s _ _ _
  case loadCommit => exact request_docket actLoadCommit_docket
  case loadAbort => exact request_docket actLoadAbort_docket
  case denyEdit => exact request_docket fun s => actDenyEdit_docket s _ _ _
  case tableQuery => exact request_docket fun s => actTableQuery_docket s _
  case allotSet => exact request_docket fun s => actAllotSet_docket s _ _ _ _ _
  case allotRemove => exact request_docket fun s => actAllotRemove_docket s _
  case allotQuery => exact request_docket fun s => actAllotQuery_docket s _
  case referAnswer => exact request_waits (actReferAnswer_waits _ _ _ _ _)
  case deskCheck line body => exact deskCheck_closes s line body
  case settingsGet => exact request_docket fun s => actSettingsGet_docket s _
  case settingsSet => exact request_waits (actSettingsSet_waits _ _ _)
  case settingsStore => exact request_docket actSettingsStore_docket
  case storeWriteEnd => exact whenRunning_docket (endStore_docket s _)
  case settingsReload => exact request_waits (actSettingsReload_waits _)
  case settingsDefault => exact request_waits (actSettingsDefault_waits _)
  case present c body =>
    refine whenRunning_closes (hearReader_closes fun u => whenUp_closes ?_)
    split
    · exact .waits (.same u)
    · next hbody => exact takePresent_closes hbody
  case withdraw c body =>
    refine whenRunning_closes (hearReader_closes fun u => whenUp_closes (.waits ?_))
    split
    · exact .same u
    · exact takeWithdraw_waits u c _
  case writeResult c body =>
    refine whenRunning_closes (hearReader_closes fun u => whenUp_closes ?_)
    split
    · exact .waits (.same u)
    · exact takeWriteResult_closes u c _ _ body
  case alive c => exact whenRunning_closes (hearReader_closes fun u => .waits (.same u))
  case ready c => exact whenRunning_closes (hearReader_closes fun u => takeReady_closes u c)
  case readerFrameDiscarded c why =>
    refine whenRunning_closes ?_
    cases why with
    | damaged => exact .waits (.of_docket rfl)
    | wrongKind => exact hearReader_closes fun u => .waits (.same u)
    | malformed => exact hearReader_closes fun u => .waits (.same u)
  case readerFrameSent c => exact whenRunning_docket (frameSent_docket s c)
  case attachTimerExpiry c => exact whenRunning_docket (attachRunsOut_docket s c)
  case readerInactivityExpiry c => exact whenRunning_closes (inactivityRunsOut_closes s c)
  case writeTimerExpiry c => exact whenRunning_closes (writeRunsOut_closes s c)
  case validationCompletion => exact whenRunning_closes (complete_closes s)
  case referralTimerExpiry slot => exact whenRunning_waits (referralRunsOut_waits s slot)
  case supervisionTimerExpiry => exact whenRunning_waits (supervisionRunsOut_waits s)
  case loadInactivityExpiry => exact whenRunning_docket (loadRunsOut_docket s)
  case dwellTimerExpiry b =>
    refine whenRunning_waits ?_
    split
    · exact (settle_waits _ _ _).after (enterLastCall_waits s b _)
    · exact .same s
  case lastCallTimerExpiry b =>
    refine whenRunning_waits ?_
    split
    · exact (settle_waits _ _ _).after (endCall_waits id b _ _)
    · exact .same s
  case reportTimerExpiry =>
    refine whenRunning_docket ?_
    split
    · rfl
    · split
      · rfl
      · exact (queueReport_docket _ .b1).trans (queueReport_docket s .b0)
  case passWindowExpiry c => exact whenRunning_closes (windowRunsOut_closes s c)
  case suspensionTimerExpiry c => exact whenRunning_closes (suspensionRunsOut_closes s c)
  case obstructionTimerExpiry c => exact whenRunning_docket (obstructionRunsOut_docket s c)
  case minimumHoldExpiry => exact whenRunning_waits (holdRunsOut_waits s)
  case beamEvent c beam broken => exact whenRunning_closes (beamMoves_closes s c beam broken)
  case rampUnsafe c => exact whenRunning_waits (takeRamp_waits s c false)
  case rampSafe c => exact whenRunning_waits (takeRamp_waits s c true)
  case evacuateActive => exact whenRunning_waits (evacuateOn_waits id)
  case evacuateInactive => exact whenRunning_docket rfl

theorem step_freeEngineIdle {s t : State} (hclaims : ClaimsOnBoarding s) (hs : FreeEngineIdle s)
    (h : step s = .next t) : FreeEngineIdle t := by
  unfold step at h
  split at h
  · obtain rfl := Host.Outcome.next.inj h
    exact (idle_waits (o := s) s).freeEngineIdle hclaims hs
  · exact (exec_closes h).freeEngineIdle hclaims hs

/-- A completion frees the engine first, so any work it leaves is new (R92, R105). -/
theorem completion_takesWork {s t : State} {w : Work} (hrun : s.power = .running) (hs : HeldOnce s)
    (h : exec .validationCompletion s = .next t) (hw : t.engine.work = some w) :
    s.TakesWork .validationCompletion t w := by
  obtain rfl : s.complete = t := (whenRunning_running hrun _).symm.trans (Host.Outcome.next.inj h)
  cases hold : s.engine.work with
  | none =>
    rw [complete, hold] at hw
    cases hold.symm.trans hw
  | some x =>
    obtain ⟨u, hu, hfree, hoffers⟩ := complete_offers hold
    rw [hu] at hw ⊢
    exact hoffers.takesWork hs hfree u.select.bus hw

end Sys2Proof.Machine

open Sys2Proof.Machine Sys2Proof.Machine.State

/-- Settles O11: every command's event adds nothing eligible, or ends with a selection, after which a FREE engine has
nothing eligible and new work is the first in the ranking of what was pending or arrived. -/
theorem freeEngineStaysIdle : Obligations.FreeEngineStaysIdle := by
  refine ⟨fun s t hclaims hs h => step_freeEngineIdle hclaims hs h, ?_⟩
  intro s t i w hrun hs h hw hkept hmark hnew
  rcases hnew with hnew | rfl
  · exact (exec_closes h).takesWork hs hw hkept hmark hnew
  · exact completion_takesWork hrun hs h hw
end
section
/-! O52: a desk check is tested, answered at once, pending or taken (R89, R90, R92, R100, R102). -/

namespace Sys2Proof.Machine.State

variable {s : State} {card : Card} {line : Nat}

/-! ### The desk after a selection (R91, R92, R94) -/

theorem handOver_occupied (s : State) (q : Requester) :
    (s.handOver q).arbiter.deskOccupied = s.arbiter.deskOccupied := by
  unfold handOver
  split <;> dsimp only <;> split <;> rfl

theorem select_occupied (s : State) : s.select.arbiter.deskOccupied = s.arbiter.deskOccupied := by
  unfold select
  split
  · rfl
  · split
    · rfl
    · exact handOver_occupied s _

theorem handOver_noDesk (h : s.arbiter.desk = none) (q : Requester) : (s.handOver q).arbiter.desk = none := by
  unfold handOver
  split
  · dsimp only
    split
    · exact h
    · exact h
  · rw [h]
    exact h

theorem select_noDesk (h : s.arbiter.desk = none) : s.select.arbiter.desk = none := by
  unfold select
  split
  · exact h
  · split
    · exact h
    · exact handOver_noDesk h _

/-- With a desk check pending, which is always eligible, a FREE engine takes some work (R91, R92). -/
theorem select_works {p : DeskPending} (h : s.arbiter.desk = some p) : s.select.engine.work ≠ none := fun hfree => by
  obtain ⟨-, hnone⟩ := candidates_eq_nil_iff.mp (select_idle s hfree)
  cases h.symm.trans hnone

/-- With nothing else pending a FREE engine takes the desk check (R94, R102). -/
theorem select_deskAlone {since : Nat} (hfree : s.engine.work = none) (hplaces : ∀ c, s.arbiter.places.get c = none)
    (hdesk : s.arbiter.desk = some ⟨card, line, since⟩) : s.select = { s with
      arbiter := { s.arbiter with desk := none }
      engine := { s.engine with work := some ⟨.desk line, card, s.snapshot, false, .none⟩ } } := by
  have hchannels : Chan.all.flatMap s.channelCandidate = [] := List.flatMap_eq_nil_iff.mpr fun c _ => by
    rw [channelCandidate, hplaces]
  have hcandidates : s.candidates = [⟨.desk line, s.cfg.deskLevel, s.aged since, since⟩] := by
    rw [candidates, hchannels, deskCandidate, hdesk]
    rfl
  unfold select
  rw [hfree, hcandidates]
  unfold handOver
  rw [hdesk]
  rfl

/-! ### The event of a desk check -/

/-- A desk check that finds the desk free arrives, the channels follow, and the engine may take work (R90, R92). -/
def deskArrived (s : State) (card : Card) (line : Nat) : State :=
  (settle s (s.arriveDesk card line) []).select

theorem deskArrived_frame (s : State) (card : Card) (line : Nat) : ∃ q a k p w, s.deskArrived card line =
    { s with notices := q, arbiter := a, channels := k, ports := p, engine := { s.engine with work := w } } := by
  obtain ⟨a', q', h'⟩ := arriveDesk_frame s card line
  obtain ⟨q, a, k, p, w, h⟩ := settleSelect_frame s (s.arriveDesk card line) []
  exact ⟨q, a, k, p, w, by rw [deskArrived, h, h']⟩

theorem deskArrived_gates (s : State) (card : Card) (line : Nat) : s.GatesKept (s.deskArrived card line) := by
  obtain ⟨a, q, h⟩ := arriveDesk_frame s card line
  have arrived : s.GatesKept (s.arriveDesk card line) := by
    rw [h]
    exact .same rfl rfl
  exact arrived.trans (settleSelect_gates s _ [])

/-- A desk check refused at its arrival leaves the desk free, with its DESK_RESULT the event's first notice (R89,
R100). -/
theorem deskArrived_refused {code : VerdictCode} (h : s.deskVerdict = some code) (card : Card) (line : Nat) :
    (s.deskArrived card line).arbiter.deskOccupied = false ∧ (s.deskArrived card line).arbiter.desk = none ∧
      s.QueuesFirst (s.deskArrived card line) (.deskResult (deskRefusal card line code)) := by
  have harrived := arriveDesk_refused h card line
  have follow := settle_follow s (s.arriveDesk card line) []
  have hextends := settle_extends s (s.arriveDesk card line) []
  unfold deskArrived
  generalize settle s (s.arriveDesk card line) [] = closed at follow hextends ⊢
  have hoccupied : closed.arbiter.deskOccupied = false := by rw [follow.occupied, harrived]
  have hdesk : closed.arbiter.desk = none := by rw [follow.desk, harrived]
  refine ⟨(select_occupied closed).trans hoccupied, select_noDesk hdesk, ?_⟩
  refine queuesFirst_after (u := s.arriveDesk card line) (by rw [harrived]) ?_
  rwa [Extends, select_notices]

/-- Any other desk check occupies the desk: it pends while the engine is BUSY, and a FREE engine takes work, this check
where nothing else is pending (R90, R92, R102). -/
theorem deskArrived_pending (h : s.deskVerdict = none) (card : Card) (line : Nat) :
    (s.deskArrived card line).arbiter.deskOccupied = true ∧
    (s.engine.work ≠ none → (s.deskArrived card line).arbiter.desk = some ⟨card, line, s.uptime⟩ ∧
      (s.deskArrived card line).engine.work = s.engine.work) ∧
    (s.engine.work = none → (s.deskArrived card line).engine.work ≠ none ∧
      ((∀ c, s.arbiter.places.get c = none) →
        (s.deskArrived card line).engine.work = some ⟨.desk line, card, s.snapshot, false, .none⟩ ∧
        (s.deskArrived card line).arbiter.desk = none)) := by
  have harrived := arriveDesk_pending h card line
  have follow := settle_follow s (s.arriveDesk card line) []
  obtain ⟨q, a, k, p, hframe⟩ := settle_frame s (s.arriveDesk card line) []
  unfold deskArrived
  generalize settle s (s.arriveDesk card line) [] = closed at follow hframe ⊢
  have hwork : closed.engine.work = s.engine.work := by rw [hframe, harrived]
  have hsnapshot : closed.snapshot = s.snapshot := by
    rw [hframe, harrived]
    rfl
  have hdesk : closed.arbiter.desk = some ⟨card, line, s.uptime⟩ := by rw [follow.desk, harrived]
  have hoccupied : closed.arbiter.deskOccupied = true := by rw [follow.occupied, harrived]
  refine ⟨(select_occupied closed).trans hoccupied, fun hbusy => ?_, fun hfree => ⟨select_works hdesk, fun hnone => ?_⟩⟩
  · obtain ⟨w, hw⟩ := Option.ne_none_iff_exists'.mp hbusy
    rw [select_of_work (hwork.trans hw)]
    exact ⟨hdesk, hwork⟩
  · have hplaces (c : Chan) : closed.arbiter.places.get c = none := by
      rcases follow.place c with e | e
      · rw [e, harrived]
        exact hnone c
      · exact e
    rw [select_deskAlone (hwork.trans hfree) hplaces hdesk, hsnapshot]
    exact ⟨rfl, rfl⟩

/-! ### The tests of DESK_CHECK (R90, R174) -/

section
variable {body : List Octet} (hbody : Card.parse body = some card)
include hbody

theorem actDeskCheck_outside (h : line = 0 ∨ 63 < line) : actDeskCheck line body s = .refuse s .badField := by
  have hout : within line 1 63 = false := Bool.eq_false_iff.mpr fun hin => by
    have := within_iff.mp hin
    omega
  rw [actDeskCheck, hbody]
  dsimp only
  rw [hout]
  rfl

theorem actDeskCheck_inside (hlow : 1 ≤ line) (hhigh : line ≤ 63) : actDeskCheck line body s =
    if s.arbiter.deskOccupied then .refuse s .busy else .ok (s.deskArrived card line) .empty := by
  rw [actDeskCheck, hbody]
  dsimp only
  rw [within_iff.mpr ⟨hlow, hhigh⟩]
  rfl

end

/-- A desk check with a line within range that finds the desk free is taken with OK. -/
theorem request_deskArrived {body : List Octet} (hrun : s.power = .running) (hbody : Card.parse body = some card)
    (hlow : 1 ≤ line) (hhigh : line ≤ 63) (hdesk : s.arbiter.deskOccupied = false) :
    exec (.deskCheck line body) s = .next { s.beginRequest.deskArrived card line with
      bus := s.repliedBus .deskCheck .part .ok .empty } := by
  obtain ⟨q, a, k, p, w, h⟩ := deskArrived_frame s.beginRequest card line
  refine congrArg Host.Outcome.next (request_acts hrun ?_ (by rw [h]))
  rw [actDeskCheck_inside hbody hlow hhigh]
  exact if_neg (Bool.eq_false_iff.mp hdesk)

end Sys2Proof.Machine.State

open Sys2Proof.Machine Sys2Proof.Machine.State

/-- Settles O52: the tests in their order, and after them a desk check refused at its arrival or pending at the event's
selection. -/
theorem deskChecksAreTaken : Obligations.DeskChecksAreTaken := by
  intro s line body hrun
  refine ⟨fun hbody => ?_, fun card hbody => ⟨fun hout => ?_, fun hlow hhigh hbusy => ?_, fun hlow hhigh hdesk => ?_⟩⟩
  · refine congrArg Host.Outcome.next (request_refused hrun ?_)
    rw [actDeskCheck, hbody]
  · exact congrArg Host.Outcome.next (request_refused hrun (actDeskCheck_outside hbody hout))
  · refine congrArg Host.Outcome.next (request_refused hrun ?_)
    rw [actDeskCheck_inside hbody hlow hhigh]
    exact if_pos hbusy
  · have hexec := request_deskArrived hrun hbody hlow hhigh hdesk
    have hgates := deskArrived_gates s.beginRequest card line
    have hrefused {code : VerdictCode} (h : s.beginRequest.deskVerdict = some code) := deskArrived_refused h card line
    have hpending (h : s.beginRequest.deskVerdict = none) := deskArrived_pending h card line
    obtain ⟨q, a, k, p, w, hframe⟩ := deskArrived_frame s.beginRequest card line
    generalize s.beginRequest.deskArrived card line = arrived at *
    refine ⟨_, hexec, ?_, ⟨hgates.gate, hgates.line⟩, fun code hcode => hrefused ?_,
      fun hquiet hserved => hpending ?_⟩
    · rw [hframe]
      rfl
    · rcases hcode with ⟨hactive, rfl⟩ | ⟨hquiet, hlevel, rfl⟩
      · exact if_pos hactive
      · exact (if_neg (Bool.eq_false_iff.mp hquiet)).trans (if_pos hlevel)
    · exact (if_neg (Bool.eq_false_iff.mp hquiet)).trans (if_neg hserved)
end
